-- ==== Sys2Proof/Word.lean ====
section
/-! DEFINITION. The word widths of the block (R9, R11) and their plainest arithmetic: narrowing an exact integer to 32 bits. -/

namespace Sys2Proof

/-- u8: enable flags, channels, power register values (R9, R35, R40, R41). -/
abbrev Byte := BitVec 8

/-- u16: sub-ticks (R9, R28). -/
abbrev Half := BitVec 16

/-- u32: counts, deadlines and every window register (R9, R61). -/
abbrev Word := BitVec 32

/-- A command word (R80). -/
abbrev Command := BitVec 64

/-- `wrap_32` of R11: `v mod 2^32`. The same bits are `to_i32(v)`, read as two's complement. -/
def wrap32 (v : Int) : Word := BitVec.ofInt 32 v

end Sys2Proof
end

