-- ==== Sys2Proof/Config.lean ====
section
/-! DEFINITION. What an implementation fixes (the parameters of R7 and R60), the environment's vocabulary (agents, window accesses, input changes: R13, R38, R42, R63), and the free values: constants with no body, of which nothing can be proved. -/

namespace Sys2Proof

/-- The parameters as a platform would state them, not yet checked (R7; `windowBase` is `P_WINDOW_BASE` of R60). -/
structure RawParams where
  /-- `P_ROLLOVER_DEFAULT`. -/
  rolloverDefault : Word
  /-- `P_TICKS_PER_BACKOFF`. -/
  ticksPerBackoff : Half
  /-- `P_TICKS_PER_SYMBOL`; no rule of the block reads it (R7). -/
  ticksPerSymbol : Half
  /-- `P_TICKS_EXPECTED_AT_SFD` (R8). -/
  ticksExpectedAtSfd : Half
  /-- `P_FLAG_WIDTH`. -/
  flagWidth : Nat
  /-- `P_CH_MIN`. -/
  chMin : Byte
  /-- `P_CH_MAX`. -/
  chMax : Byte
  /-- `P_CHANNEL_INIT`. -/
  channelInit : Byte
  /-- `P_MAX_ATTEN`. -/
  maxAtten : Byte
  /-- `P_TXPOWER_TABLE`: the register value of attenuation `k` at position `k`. -/
  txPowerTable : List Byte
  /-- `P_TXPOWER_INIT`. -/
  txPowerInit : Byte
  /-- `P_WINDOW_BASE`. -/
  windowBase : Nat
  deriving DecidableEq, Repr

/-- The constraint column of R7, and the alignment of R60, one conjunct each. -/
def RawParams.wellFormed (p : RawParams) : Bool :=
  decide (0 < p.rolloverDefault) &&
  decide (0 < p.ticksPerBackoff) &&
  decide (0 < p.ticksPerSymbol) &&
  decide (p.ticksExpectedAtSfd < p.ticksPerBackoff) &&
  decide (p.flagWidth = 8) &&
  decide (p.chMin = 11) &&
  decide (p.chMax = 28) &&
  decide (p.chMin ≤ p.channelInit ∧ p.channelInit ≤ p.chMax) &&
  decide (p.txPowerTable.length = p.maxAtten.toNat + 1) &&
  decide (p.windowBase % 64 = 0)

/-- A well-formed configuration: the parameters with the check of R7 passed. An ill-formed one cannot be built. -/
structure Params extends RawParams where
  wf : toRawParams.wellFormed = true
  deriving DecidableEq, Repr

/-- "a model must refuse an ill-formed configuration" (R7): the only way in from unchecked parameters. -/
def Params.ofRaw (p : RawParams) : Option Params :=
  if h : p.wellFormed = true then some { p with wf := h } else none

/-- The agents of R13. -/
inductive Agent where
  /-- The foreground caller. -/
  | fg
  /-- The compare-event sequencer. -/
  | isrCmp
  /-- The radio interrupt context. -/
  | envRadio
  /-- The hardware time base. -/
  | timer
  deriving DecidableEq, Repr

/-- The two agents that access the window and issue commands (R220). -/
inductive Caller where
  | fg
  | envRadio
  deriving DecidableEq, Repr, Inhabited

/-- A caller as an agent. -/
def Caller.agent : Caller → Agent
  | .fg => .fg
  | .envRadio => .envRadio

/-- A host access to the register window: `MemRead(base + offset, width)` or `MemWrite(base + offset, width, value)` (R12, R60); the width is in bytes. -/
inductive Access where
  | read (offset width : Nat)
  | write (offset width : Nat) (value : Word)
  deriving DecidableEq, Repr, Inhabited

/-- The inputs of the block (R38, R42). -/
inductive InputLine where
  | rxActive
  | txActive
  | txFrameAlreadyDequeued
  | gie
  deriving DecidableEq, Repr, Inhabited

/-- What each input is driven to (R38, R42). -/
structure Inputs where
  /-- `rx_active`. -/
  rxActive : Bool
  /-- `tx_active`. -/
  txActive : Bool
  /-- `tx_frame_already_dequeued`. -/
  txFrameAlreadyDequeued : Bool
  /-- `gie`, the host CPU's global interrupt enable. -/
  gie : Bool
  deriving DecidableEq, Repr, Inhabited

/-- One step of a run: which agent moves, and with what (R13, R70). -/
inductive Stimulus where
  /-- The caller performs a window access. -/
  | access (c : Caller) (a : Access)
  /-- The caller runs the head of its remaining micro-steps (R39). -/
  | micro (c : Caller)
  /-- ISR_CMP takes its next step (R211, R122). -/
  | isr
  /-- TIMER delivers a tick (R100). -/
  | tick
  /-- An input changes (R38, R42). -/
  | drive (i : InputLine) (v : Bool)
  deriving DecidableEq, Repr, Inhabited

/-- The implementation's parameters: some well-formed configuration, nothing more is known (R7; log 8). The argument only shows that one exists. -/
opaque Config.implementation [Inhabited Params] : Params

/-- A configuration that shows `Params` has members; no value of it is used. -/
def Config.witness : Params :=
  { rolloverDefault := 1, ticksPerBackoff := 1, ticksPerSymbol := 1, ticksExpectedAtSfd := 0, flagWidth := 8,
    chMin := 11, chMax := 28, channelInit := 11, maxAtten := 0, txPowerTable := [0], txPowerInit := 0,
    windowBase := 0, wf := by decide }

/-- The configuration the machine is reset with (log 8). -/
def Config.params : Params := @Config.implementation ⟨Config.witness⟩

/-- What ENV_RADIO and the host CPU drive at POR (R38, I17; log 7). -/
opaque Config.porInputs : Inputs

/-- The environment's free choice of its `n`-th step, once nothing is scheduled (I17 to I19, R262; log 1). -/
opaque Config.freeStep : Nat → Stimulus

end Sys2Proof
end

