-- ==== Sys2Proof/Machine/State.lean ====
section
/-! DEFINITION. All the state the spec gives the block (10_state.md, R20 to R46; the window latches of R61, R63), the reasons a step can stop, and the state after power-on reset. -/

namespace Sys2Proof.Machine

/-- Which events the compare register represents (R27). -/
inductive CompareState where
  | rollover
  | trigger
  | rolloverAndTrigger
  | rolloverAndArmTrigger
  deriving DecidableEq, Repr

/-- The compare sequencer's phase (R32). -/
inductive IsrPhase where
  | idle
  | triggerCallbackDue
  deriving DecidableEq, Repr

/-- The fault codes of R201. -/
inductive FaultCode where
  | illegalOpcode
  | reservedField
  | badAccess
  | busy
  | notInitialised
  | triggerUnwritten
  | resetIe
  | rolloverNotAboveCount
  | setCountState
  | setCountRange
  | triggerRange
  | realignTxActive
  | flagsZero
  | channelRange
  deriving DecidableEq, Repr

/-- The calls the block makes outward (R45). -/
inductive Event where
  /-- `CB_ROLLOVER`. -/
  | cbRollover
  /-- `CB_TRIGGER`. -/
  | cbTrigger
  /-- `CB_RX_HALT_CLEANUP`. -/
  | cbRxHaltCleanup
  /-- `CB_SERVICE_TX`. -/
  | cbServiceTx
  /-- `HW_RX_ON`. -/
  | hwRxOn
  /-- `HW_RX_OFF`. -/
  | hwRxOff
  /-- `HW_FLUSH_RX_FIFO`. -/
  | hwFlushRxFifo
  /-- `HW_CLEAR_RX_THRESHOLD_IRQ`. -/
  | hwClearRxThresholdIrq
  /-- `HW_SET_CHANNEL(ch)`. -/
  | hwSetChannel (ch : Byte)
  /-- `HW_SET_TX_POWER(v)`. -/
  | hwSetTxPower (v : Byte)
  deriving DecidableEq, Repr

/-- The micro-steps a command can leave to run (R39). -/
inductive MicroStep where
  /-- `REALIGN` step 2 (R116). -/
  | realignDelay (d : Nat)
  /-- `REALIGN` step 3 (R117). -/
  | realignWrite (delta : Int) (n : Word)
  /-- RadioOnBody (R140). -/
  | radioOn
  /-- RadioOffBody (R141). -/
  | radioOff
  /-- OffRequestStep1 (R142). -/
  | offRequest1
  /-- OffRequestStep2 (R142). -/
  | offRequest2
  /-- `HARDDISABLE` step 3 (R153). -/
  | haltCleanup
  /-- `HARDDISABLE` step 4 (R153). -/
  | serviceTx
  /-- `ONREQUEST` step 1, when it is step 4 of `UPDATECHANNEL` (R154, R176). -/
  | onRequest1
  /-- `SETCHANNEL` step 2 (R175). -/
  | setChannel2
  /-- `UPDATECHANNEL` step 1 (R176). -/
  | updateChannel1
  /-- `UPDATECHANNEL` step 3, with the channel latched in step 1 (R176). -/
  | writeChannel (ch : Byte)
  /-- `SETTXPOWER` step 2 (R177). -/
  | setTxPower2
  /-- The body of `UPDATETXPOWER` (R178). -/
  | updateTxPower
  deriving DecidableEq, Repr

/-- BackoffClock (R22 to R32, R34). -/
structure Clock where
  /-- `rollover` (R22). -/
  rollover : Word
  /-- `count` (R23). -/
  count : Word
  /-- `compare` (R24). -/
  compare : Word
  /-- `trigger` (R25). -/
  trigger : Word
  /-- `trigger_written` (R26). -/
  triggerWritten : Bool
  /-- `compare_state` (R27). -/
  compareState : CompareState
  /-- `subtick` (R28). -/
  subtick : Half
  /-- `delay_hold` (R29). -/
  delayHold : Nat
  /-- `cmp_pending` (R30). -/
  cmpPending : Bool
  /-- `cmp_ie` (R31). -/
  cmpIe : Bool
  /-- `isr_phase` (R32). -/
  isrPhase : IsrPhase
  /-- `clock_initialised` (R34). -/
  clockInitialised : Bool
  deriving DecidableEq, Repr

/-- RxTxArbiter (R35 to R37). -/
structure Arbiter where
  /-- `enable_flags` (R35). -/
  enableFlags : Byte
  /-- `rx_on` (R36). -/
  rxOn : Bool
  /-- `dbg_led` (R37). -/
  dbgLed : Bool
  deriving DecidableEq, Repr

/-- RadioParameterScheduler (R40, R41). -/
structure Radio where
  /-- `requested_channel` (R40). -/
  requestedChannel : Byte
  /-- `applied_channel` (R40). -/
  appliedChannel : Byte
  /-- `requested_tx_power` (R41). -/
  requestedTxPower : Byte
  /-- `applied_tx_power` (R41). -/
  appliedTxPower : Byte
  deriving DecidableEq, Repr

/-- `cont[a]` of R39. -/
structure Conts where
  fg : List MicroStep
  isrCmp : List MicroStep
  envRadio : List MicroStep
  deriving DecidableEq, Repr

/-- `CMD_LO` and `CMD_HI`, banked per agent (R61, R63). -/
structure Latches where
  loFg : Word
  hiFg : Word
  loEnv : Word
  hiEnv : Word
  deriving DecidableEq, Repr

/-- The machine. The last four fields are the model's own (log 1, 9, 10); the rest is the spec's. -/
structure State where
  /-- The implementation parameters (R7); no step writes them. -/
  cfg : Params
  clock : Clock
  /-- `result` (R33). -/
  result : Word
  arbiter : Arbiter
  /-- The inputs (R38, R42); no step of the block writes them. -/
  inputs : Inputs
  conts : Conts
  radio : Radio
  /-- `fault` (R43). -/
  fault : Option FaultCode
  /-- `out`, oldest event first (R45). -/
  out : List Event
  latches : Latches
  /-- Whose window access is being performed (log 9). -/
  caller : Caller
  /-- What the last admitted window read returned to the host (log 10). -/
  readData : Word
  /-- The environment's next steps, first one next (log 1). -/
  script : List Stimulus
  /-- How many free steps of the environment have been taken (log 1). -/
  freeCount : Nat
  deriving DecidableEq, Repr

/-- Why the machine stopped. -/
inductive Fault where
  /-- Raised by `runStep` at a state whose `fault` is set: the block is halted and no agent has a step (R43, R200). Safe: the model stops where the release build is unspecified. -/
  | halted (c : FaultCode)
  deriving DecidableEq, Repr

/-- Why a step has no meaning. -/
inductive Refusal where
  /-- Answered by an arm of `exec` whose instruction has no meaning yet. Safe. -/
  | notModelled (mnemonic : String)
  /-- Answered by `runStep` when the scheduled agent has no step in this state (R13, R34, R211, R212), so the schedule is no run of the block (log 3). Safe. -/
  | noStep (a : Agent)
  deriving DecidableEq, Repr

/-- Power-on reset under a configuration (R46, R240). The values of `rollover`, `count`, `compare`, `compareState`, `subtick` (log 5) and `trigger` (log 6) are the model's; nothing can read them before `INIT` or `SETTRIGGER`. -/
def State.por (p : Params) (inputs : Inputs) : State where
  cfg := p
  clock := {
    rollover := 0
    count := 0
    compare := 0
    trigger := 0
    triggerWritten := false
    compareState := .rollover
    subtick := 0
    delayHold := 0
    cmpPending := false
    cmpIe := false
    isrPhase := .idle
    clockInitialised := false }
  result := 0
  arbiter := { enableFlags := 0, rxOn := false, dbgLed := false }
  inputs := inputs
  conts := { fg := [], isrCmp := [], envRadio := [] }
  radio := {
    requestedChannel := p.channelInit
    appliedChannel := p.channelInit
    requestedTxPower := p.txPowerInit
    appliedTxPower := p.txPowerInit }
  fault := none
  out := []
  latches := { loFg := 0, hiFg := 0, loEnv := 0, hiEnv := 0 }
  caller := .fg
  readData := 0
  script := []
  freeCount := 0

/-- The machine right after power-on reset, of any implementation and with any inputs driven (R46, R240; log 7, 8). -/
def State.reset : State := State.por Config.params Config.porInputs

end Sys2Proof.Machine
end

