-- ==== Sys2Proof/Machine/Operands.lean ====
section
/-! DEFINITION. Operand arithmetic: the channel range (R175), the transmit-power clamp and table (R177), the enable-flag set (R150, R152), the activity gates (R142, R175, R177) and realignment (R114). -/

namespace Sys2Proof.Machine

/-- `P_CH_MIN ≤ ch ≤ P_CH_MAX` (R175). -/
def channelInRange (p : Params) (ch : Byte) : Bool := decide (p.chMin ≤ ch) && decide (ch ≤ p.chMax)

/-- `min(atten, P_MAX_ATTEN)` (R177). -/
def clampAtten (p : Params) (atten : Byte) : Byte := if atten ≤ p.maxAtten then atten else p.maxAtten

/-- `P_TXPOWER_TABLE(k)`. A well-formed table is total on the clamped attenuations (R7), so the default is never used for one. -/
def txPowerEntry (p : Params) (k : Byte) : Byte := p.txPowerTable.getD k.toNat 0

/-- The register value of an attenuation: clamped, then looked up (R177). -/
def txPowerOf (p : Params) (atten : Byte) : Byte := txPowerEntry p (clampAtten p atten)

/-- OR into the flag set (R150, R151). -/
def addFlags (set flags : Byte) : Byte := set ||| flags

/-- AND-clear from the flag set (R152). -/
def clearFlags (set flags : Byte) : Byte := set &&& ~~~flags

/-- The receiver may go off: no receive, and no transmit or its frame already dequeued (R142). -/
def offAllowed (i : Inputs) : Bool := !i.rxActive && (!i.txActive || i.txFrameAlreadyDequeued)

/-- A channel request forwards at once: no transmit (R175). -/
def channelIdle (i : Inputs) : Bool := !i.txActive

/-- A power request forwards at once: neither receive nor transmit (R177). -/
def powerIdle (i : Inputs) : Bool := !i.rxActive && !i.txActive

/-- What realignment computes: `backoff_delta`, `timer_delay_ticks`, the new count (R114). -/
structure Realignment where
  delta : Int
  delay : Nat
  newCount : Word
  deriving DecidableEq, Repr

/-- The offset of the recorded count from backoff 0: counts past half the cycle belong to the previous one (R114). -/
def baseDelta (rc rollover : Word) : Int :=
  if rc.toNat > rollover.toNat / 2 then (rc.toNat : Int) - rollover.toNat else rc.toNat

/-- `received_sub_tick - TICKS_EXPECTED_AT_SFD` before the correction (R114). -/
def rawDelay (p : Params) (rst : Half) : Int := (rst.toNat : Int) - p.ticksExpectedAtSfd.toNat

/-- `realign_compute` of R114, on exact integers. -/
def realignCompute (p : Params) (rc : Word) (rst : Half) (rollover count : Word) : Realignment :=
  let delta := if rawDelay p rst < 0 then baseDelta rc rollover - 1 else baseDelta rc rollover
  let d := if rawDelay p rst < 0 then rawDelay p rst + p.ticksPerBackoff.toNat else rawDelay p rst
  { delta := delta
    delay := d.toNat
    newCount := wrap32 (((count.toNat : Int) - delta) % rollover.toNat) }

end Sys2Proof.Machine
end

