-- ==== Sys2Proof/Machine/Ops.lean ====
section
/-! DEFINITION. The named operations every meaning is written with: raising a fault (R200), emitting an event (R45), the remaining micro-steps (R39), the window latches (R63), the issue prologue (R103), the shared arbiter bodies (R140 to R142), and taking the compare interrupt and returning from it (R120 to R123). -/

namespace Sys2Proof.Machine

/-- What the machine answers. -/
abbrev Answer := Host.Outcome State Fault Refusal

/-- `raise Fault(code)` (R200): the sticky fault state, and nothing else. -/
def State.raise (s : State) (c : FaultCode) : State := { s with fault := some c }

/-- `emit(ev)` (R12, R45). -/
def State.emit (s : State) (e : Event) : State := { s with out := s.out ++ [e] }

/-- `cont[a]`; TIMER has none (R39). -/
def State.cont (s : State) (a : Agent) : List MicroStep :=
  match a with
  | .fg => s.conts.fg
  | .isrCmp => s.conts.isrCmp
  | .envRadio => s.conts.envRadio
  | .timer => []

/-- `cont[a] <- l` (R39). -/
def Conts.put (c : Conts) (a : Agent) (l : List MicroStep) : Conts :=
  match a with
  | .fg => { c with fg := l }
  | .isrCmp => { c with isrCmp := l }
  | .envRadio => { c with envRadio := l }
  | .timer => c

/-- `s.cont[a] <- l` (R39). -/
def State.setCont (s : State) (a : Agent) (l : List MicroStep) : State := { s with conts := s.conts.put a l }

/-- The agent issuing the command that runs (R63). -/
def State.issuer (s : State) : Agent := s.caller.agent

/-- The window access that follows is `c`'s (log 9). -/
def State.asCaller (s : State) (c : Caller) : State := { s with caller := c }

/-- `CMD_LO[a]` (R61). -/
def State.cmdLo (s : State) (c : Caller) : Word :=
  match c with
  | .fg => s.latches.loFg
  | .envRadio => s.latches.loEnv

/-- `CMD_HI[a]` (R61). -/
def State.cmdHi (s : State) (c : Caller) : Word :=
  match c with
  | .fg => s.latches.hiFg
  | .envRadio => s.latches.hiEnv

/-- A write to `CMD_LO[a]` latches it and does nothing else (R66). -/
def State.latchLo (s : State) (c : Caller) (v : Word) : State :=
  match c with
  | .fg => { s with latches := { s.latches with loFg := v } }
  | .envRadio => { s with latches := { s.latches with loEnv := v } }

/-- `CMD_HI[a]` keeps the value that issued a command; a write that faulted changed nothing but `fault` (R61, R200; log 12). -/
def State.latchHi (s : State) (c : Caller) (v : Word) : State :=
  if s.fault.isSome then s else
  match c with
  | .fg => { s with latches := { s.latches with hiFg := v } }
  | .envRadio => { s with latches := { s.latches with hiEnv := v } }

/-- An admitted read returns `v` to the host and changes nothing of the block (R66; log 10). -/
def State.deliver (s : State) (v : Word) : State := { s with readData := v }

/-- An input is driven to `v` (R38, R42; for when `gie` may be, log 23). -/
def State.drive (s : State) (i : InputLine) (v : Bool) : State :=
  match i with
  | .rxActive => { s with inputs := { s.inputs with rxActive := v } }
  | .txActive => { s with inputs := { s.inputs with txActive := v } }
  | .txFrameAlreadyDequeued => { s with inputs := { s.inputs with txFrameAlreadyDequeued := v } }
  | .gie => { s with inputs := { s.inputs with gie := v } }

/-- Check (1) of the prologue: a new command while the issuer's micro-steps remain (R63, R103). -/
def State.busy (s : State) : Bool := !(s.cont s.issuer).isEmpty

/-- The issue prologue (R103), checks (1) and (3), before a command's own body; `clock` says that the opcode is in 0x03 to 0x09. Check (2), decoding, is `issue`'s, which reaches a body only through it. -/
def prologue (clock : Bool) (body : State → State) (s : State) : State :=
  if s.busy then s.raise .busy
  else if clock && !s.clock.clockInitialised then s.raise .notInitialised
  else body s

/-- Every command completes or faults (R203): its meaning answers a next state. -/
def command (clock : Bool) (body : State → State) (s : State) : Answer := .next (prologue clock body s)

/-- `f` applied to a next state. -/
def onNext (f : State → State) (o : Answer) : Answer :=
  match o with
  | .next s => .next (f s)
  | .fault r => .fault r
  | .refused r => .refused r

/-- RadioOnBody (R140); `dbg_led` follows `rx_on` (R37). -/
def radioOnBody (s : State) : State :=
  if s.arbiter.rxOn then s
  else { s with arbiter := { s.arbiter with rxOn := true, dbgLed := true } }.emit .hwRxOn

/-- RadioOffBody (R141). -/
def radioOffBody (s : State) : State :=
  if s.arbiter.rxOn then { s with arbiter := { s.arbiter with rxOn := false, dbgLed := false } }.emit .hwRxOff
  else s

/-- OffRequestStep1 (R142): the flags test, outside the critical section. -/
def offRequestStep1 (a : Agent) (rest : List MicroStep) (s : State) : State :=
  if s.arbiter.enableFlags = 0 then s.setCont a (.offRequest2 :: rest) else s.setCont a rest

/-- OffRequestStep2 (R142): the activity test, then off, flush and threshold clear; the flags are not tested again. -/
def offRequestStep2 (a : Agent) (rest : List MicroStep) (s : State) : State :=
  if offAllowed s.inputs then
    (((radioOffBody s).emit .hwFlushRxFifo).emit .hwClearRxThresholdIrq).setCont a rest
  else s.setCont a rest

/-- Step 1 of `ONREQUEST` (R154). -/
def onRequestStep1 (a : Agent) (s : State) : State :=
  if s.arbiter.enableFlags = 0 then s.setCont a [] else s.setCont a [.radioOn]

/-- `has_rollover` (R27): the state's bit 0. -/
def CompareState.hasRollover : CompareState → Bool
  | .rollover | .rolloverAndTrigger | .rolloverAndArmTrigger => true
  | .trigger => false

/-- `has_trigger` (R27): the state's bit 1. -/
def CompareState.hasTrigger : CompareState → Bool
  | .trigger | .rolloverAndTrigger => true
  | .rollover | .rolloverAndArmTrigger => false

/-- The rollover stage of phase A: count to 0 and the rollover callback (R121). -/
def rolloverStage (s : State) : State := { s with clock := { s.clock with count := 0 } }.emit .cbRollover

/-- The trigger stage of phase A: back to `Rollover`, the callback owed (R121). -/
def triggerStage (s : State) : State :=
  { s with clock := { s.clock with
      compareState := .rollover, compare := s.clock.rollover, isrPhase := .triggerCallbackDue } }

/-- The second-stage arm of phase A (R121). -/
def armStage (s : State) : State :=
  { s with clock := { s.clock with compareState := .trigger, compare := s.clock.trigger } }

/-- TAKING THE COMPARE INTERRUPT: phase A of the sequencer, in one step (R120, R121). It clears the pending flag, latches the prior state and services it; no address and no status word is saved and `gie` is unchanged (R214). -/
def takeCompareInterrupt (s : State) : State :=
  let p := s.clock.compareState
  let s := { s with clock := { s.clock with cmpPending := false } }
  let s := if p.hasRollover then rolloverStage s else s
  if p.hasTrigger then triggerStage s
  else if p = .rolloverAndArmTrigger then armStage s
  else s

/-- RETURNING FROM IT: phase B, the owed trigger callback (R122, R216). Where none is owed, phase A was the whole service. -/
def returnFromInterrupt (s : State) : State :=
  { s.emit .cbTrigger with clock := { s.clock with isrPhase := .idle } }

end Sys2Proof.Machine
end

