-- ==== Sys2Proof/Machine/Timer.lean ====
section
/-! DEFINITION. The time base: one tick of the hardware timer, the compare match and the forced delay (R100 to R102). -/

namespace Sys2Proof.Machine

/-- One backoff period elapses: the count advances, and reaching the compare value sets the pending flag (R100, R101). -/
def backoffElapsed (c : Clock) : Clock :=
  let count := c.count + 1
  { c with subtick := 0, count := count, cmpPending := c.cmpPending || decide (count = c.compare) }

/-- TimerTick of R100, on the clock. A forced delay absorbs the tick (R102). -/
def tickClock (p : Params) (c : Clock) : Clock :=
  if 0 < c.delayHold then { c with delayHold := c.delayHold - 1 }
  else if c.subtick + 1 = p.ticksPerBackoff then backoffElapsed c
  else { c with subtick := c.subtick + 1 }

/-- TimerTick of R100. -/
def timerTick (s : State) : State := { s with clock := tickClock s.cfg s.clock }

/-- `force_delay(d)` (R102): the next `d` ticks are absorbed. -/
def forceDelay (d : Nat) (s : State) : State :=
  { s with clock := { s.clock with delayHold := s.clock.delayHold + d } }

end Sys2Proof.Machine
end

