-- ==== Sys2Proof/Machine/BackoffClock.lean ====
section
/-! DEFINITION. The BackoffClock commands (R105 to R113) and the micro-steps of REALIGN (R115 to R117). -/

namespace Sys2Proof.Machine

/-- The body of `INIT` (R105). -/
def initBody (s : State) : State :=
  { s with clock := { s.clock with
      compareState := .rollover
      count := 0
      rollover := s.cfg.rolloverDefault
      compare := s.cfg.rolloverDefault
      subtick := 0
      delayHold := 0
      cmpPending := false
      cmpIe := true
      isrPhase := .idle
      clockInitialised := true } }

/-- `INIT` (R105). -/
def execInit (s : State) : Answer := command false initBody s

/-- The body of `RESET` (R106): the precondition, then the interrupt disabled first, then `INIT`'s body. -/
def resetBody (s : State) : State :=
  if s.inputs.gie then s.raise .resetIe
  else initBody { s with clock := { s.clock with cmpIe := false } }

/-- `RESET` (R106). -/
def execReset (s : State) : Answer := command false resetBody s

/-- The body of `SETROLLOVER` (R107). -/
def setRolloverBody (value : Word) (s : State) : State :=
  if s.clock.count < value then { s with clock := { s.clock with rollover := value, compare := value } }
  else s.raise .rolloverNotAboveCount

/-- `SETROLLOVER value` (R107). -/
def execSetRollover (value : Word) (s : State) : Answer := command true (setRolloverBody value) s

/-- The body of `SETCOUNT` (R108): the state is checked before the range (R204). -/
def setCountBody (value : Word) (s : State) : State :=
  if s.clock.compareState ≠ .rollover then s.raise .setCountState
  else if value < s.clock.rollover then { s with clock := { s.clock with count := value } }
  else s.raise .setCountRange

/-- `SETCOUNT value` (R108). -/
def execSetCount (value : Word) (s : State) : Answer := command true (setCountBody value) s

/-- The body of `GETCOUNT` (R109). -/
def getCountBody (s : State) : State := { s with result := s.clock.count }

/-- `GETCOUNT` (R109). -/
def execGetCount (s : State) : Answer := command true getCountBody s

/-- The body of `GETTRIGGER` (R110). -/
def getTriggerBody (s : State) : State :=
  if s.clock.triggerWritten then { s with result := s.clock.trigger } else s.raise .triggerUnwritten

/-- `GETTRIGGER` (R110). -/
def execGetTrigger (s : State) : Answer := command true getTriggerBody s

/-- The state a trigger arms at a count (R111): single-stage when the cycle still has room, else both events at the rollover when it is 0, else two stages. -/
def armedState (t count : Word) : CompareState :=
  if count < t then .trigger else if t = 0 then .rolloverAndTrigger else .rolloverAndArmTrigger

/-- The compare value a trigger arms at a count (R111). -/
def armedCompare (t count rollover : Word) : Word := if count < t then t else rollover

/-- The body of `SETTRIGGER` (R111). -/
def setTriggerBody (t : Word) (s : State) : State :=
  if t < s.clock.rollover then
    { s with clock := { s.clock with
        trigger := t
        triggerWritten := true
        compareState := armedState t s.clock.count
        compare := armedCompare t s.clock.count s.clock.rollover } }
  else s.raise .triggerRange

/-- `SETTRIGGER t` (R111). -/
def execSetTrigger (t : Word) (s : State) : Answer := command true (setTriggerBody t) s

/-- The body of `CANCELTRIGGER` (R112). -/
def cancelTriggerBody (s : State) : State :=
  { s with clock := { s.clock with compareState := .rollover, compare := s.clock.rollover } }

/-- `CANCELTRIGGER` (R112). -/
def execCancelTrigger (s : State) : Answer := command true cancelTriggerBody s

/-- `REALIGN` step 1 (R115): the count is read here, and the two accesses that follow are left to run. -/
def realignBody (rc : Word) (rst : Half) (s : State) : State :=
  if s.inputs.txActive then s.raise .realignTxActive
  else
    let r := realignCompute s.cfg rc rst s.clock.rollover s.clock.count
    s.setCont s.issuer [.realignDelay r.delay, .realignWrite r.delta r.newCount]

/-- `REALIGN rc, rst` (R113). -/
def execRealign (rc : Word) (rst : Half) (s : State) : Answer := command true (realignBody rc rst) s

/-- `REALIGN` step 2 (R116). -/
def realignStep2 (d : Nat) (a : Agent) (rest : List MicroStep) (s : State) : State :=
  (forceDelay d s).setCont a rest

/-- `REALIGN` step 3 (R117): the corrected count and the returned delta; `compare` is not looked at. -/
def realignStep3 (delta : Int) (n : Word) (a : Agent) (s : State) : State :=
  { s with clock := { s.clock with count := n }, result := wrap32 delta }.setCont a []

end Sys2Proof.Machine
end

