-- ==== Sys2Proof/Machine/RadioParams.lean ====
section
/-! DEFINITION. The RadioParameterScheduler commands (R175 to R178). Only the Update bodies write the applied registers (R170). -/

namespace Sys2Proof.Machine

/-- The body of `SETCHANNEL` step 1 (R175). -/
def setChannelBody (ch : Byte) (s : State) : State :=
  if channelInRange s.cfg ch then
    { s with radio := { s.radio with requestedChannel := ch } }.setCont s.issuer [.setChannel2]
  else s.raise .channelRange

/-- `SETCHANNEL ch` (R175). -/
def execSetChannel (ch : Byte) (s : State) : Answer := command false (setChannelBody ch) s

/-- `SETCHANNEL` step 2 (R175): forward to `UPDATECHANNEL` unless a transmit is active. -/
def setChannelStep2 (a : Agent) (s : State) : State :=
  s.setCont a (if channelIdle s.inputs then [.updateChannel1] else [])

/-- `UPDATECHANNEL` step 1 (R176): the applied copy is written and the channel latched for step 3. -/
def updateChannelStep1 (a : Agent) (s : State) : State :=
  if s.radio.requestedChannel ≠ s.radio.appliedChannel then
    { s with radio := { s.radio with appliedChannel := s.radio.requestedChannel } }.setCont a
      [.radioOff, .writeChannel s.radio.requestedChannel, .onRequest1]
  else s.setCont a []

/-- The body of `UPDATECHANNEL` as a command (R176). -/
def updateChannelBody (s : State) : State := updateChannelStep1 s.issuer s

/-- `UPDATECHANNEL` (R176). -/
def execUpdateChannel (s : State) : Answer := command false updateChannelBody s

/-- The body of `SETTXPOWER` step 1 (R177). -/
def setTxPowerBody (atten : Byte) (s : State) : State :=
  { s with radio := { s.radio with requestedTxPower := txPowerOf s.cfg atten } }.setCont s.issuer [.setTxPower2]

/-- `SETTXPOWER atten` (R177). -/
def execSetTxPower (atten : Byte) (s : State) : Answer := command false (setTxPowerBody atten) s

/-- `SETTXPOWER` step 2 (R177): forward to `UPDATETXPOWER` only when neither receive nor transmit is active. -/
def setTxPowerStep2 (a : Agent) (s : State) : State :=
  s.setCont a (if powerIdle s.inputs then [.updateTxPower] else [])

/-- The body of `UPDATETXPOWER` (R178). -/
def updateTxPowerStep (a : Agent) (s : State) : State :=
  if s.radio.requestedTxPower ≠ s.radio.appliedTxPower then
    ({ s with radio := { s.radio with appliedTxPower := s.radio.requestedTxPower } }.emit
      (.hwSetTxPower s.radio.requestedTxPower)).setCont a []
  else s.setCont a []

/-- The body of `UPDATETXPOWER` as a command (R178). -/
def updateTxPowerBody (s : State) : State := updateTxPowerStep s.issuer s

/-- `UPDATETXPOWER` (R178). -/
def execUpdateTxPower (s : State) : Answer := command false updateTxPowerBody s

end Sys2Proof.Machine
end

