-- ==== Sys2Proof/Machine/RxTxArbiter.lean ====
section
/-! DEFINITION. The RxTxArbiter commands (R150 to R157), over the shared bodies of R140 to R142. -/

namespace Sys2Proof.Machine

/-- The body of `ENABLE` step 1 (R150); RadioOn follows whatever the flags were. -/
def enableBody (flags : Byte) (s : State) : State :=
  if flags = 0 then s.raise .flagsZero
  else { s with arbiter := { s.arbiter with enableFlags := addFlags s.arbiter.enableFlags flags } }.setCont
    s.issuer [.radioOn]

/-- `ENABLE flags` (R150). -/
def execEnable (flags : Byte) (s : State) : Answer := command false (enableBody flags) s

/-- The body of `SOFTENABLE` (R151). -/
def softEnableBody (flags : Byte) (s : State) : State :=
  if flags = 0 then s.raise .flagsZero
  else { s with arbiter := { s.arbiter with enableFlags := addFlags s.arbiter.enableFlags flags } }

/-- `SOFTENABLE flags` (R151). -/
def execSoftEnable (flags : Byte) (s : State) : Answer := command false (softEnableBody flags) s

/-- The body of `DISABLE` step 1 (R152): OffRequest follows when the flags are 0 after the clear. -/
def disableBody (flags : Byte) (s : State) : State :=
  if flags = 0 then s.raise .flagsZero
  else { s with arbiter := { s.arbiter with enableFlags := clearFlags s.arbiter.enableFlags flags } }.setCont
    s.issuer (if clearFlags s.arbiter.enableFlags flags = 0 then [.offRequest1] else [])

/-- `DISABLE flags` (R152). -/
def execDisable (flags : Byte) (s : State) : Answer := command false (disableBody flags) s

/-- The body of `HARDDISABLE` step 1 (R153); the inputs are not read. -/
def hardDisableBody (s : State) : State :=
  { s with arbiter := { s.arbiter with enableFlags := 0 } }.setCont s.issuer [.radioOff, .haltCleanup, .serviceTx]

/-- `HARDDISABLE` (R153). -/
def execHardDisable (s : State) : Answer := command false hardDisableBody s

/-- The body of `ONREQUEST` step 1 (R154). -/
def onRequestBody (s : State) : State := onRequestStep1 s.issuer s

/-- `ONREQUEST` (R154). -/
def execOnRequest (s : State) : Answer := command false onRequestBody s

/-- The body of `OFFREQUEST` step 1 (R155), with nothing after OffRequest. -/
def offRequestBody (s : State) : State := offRequestStep1 s.issuer [] s

/-- `OFFREQUEST` (R155). -/
def execOffRequest (s : State) : Answer := command false offRequestBody s

/-- `RADIOON` (R156): RadioOnBody, one step. -/
def execRadioOn (s : State) : Answer := command false radioOnBody s

/-- `RADIOOFF` (R157): RadioOffBody, one step. -/
def execRadioOff (s : State) : Answer := command false radioOffBody s

/-- `HARDDISABLE` steps 3 and 4 (R153): the call is emitted and the micro-step is done. -/
def emitStep (e : Event) (a : Agent) (rest : List MicroStep) (s : State) : State := (s.emit e).setCont a rest

end Sys2Proof.Machine
end

