-- ==== Sys2Proof/Machine/Micro.lean ====
section
/-! DEFINITION. Running a micro-step: the head of `cont[a]`, with what stands behind it (R39). -/

namespace Sys2Proof.Machine

/-- Micro-step `m` of agent `a`, with `rest` behind it in `cont[a]`. -/
def runMicro (m : MicroStep) (a : Agent) (rest : List MicroStep) (s : State) : State :=
  match m with
  | .realignDelay d => realignStep2 d a rest s
  | .realignWrite delta n => realignStep3 delta n a s
  | .radioOn => (radioOnBody s).setCont a []
  | .radioOff => (radioOffBody s).setCont a rest
  | .offRequest1 => offRequestStep1 a rest s
  | .offRequest2 => offRequestStep2 a rest s
  | .haltCleanup => emitStep .cbRxHaltCleanup a rest s
  | .serviceTx => emitStep .cbServiceTx a [] s
  | .onRequest1 => onRequestStep1 a s
  | .setChannel2 => setChannelStep2 a s
  | .updateChannel1 => updateChannelStep1 a s
  | .writeChannel ch => emitStep (.hwSetChannel ch) a rest s
  | .setTxPower2 => setTxPowerStep2 a s
  | .updateTxPower => updateTxPowerStep a s

/-- Agent `a`'s next micro-step, where it has one (R39). -/
def microStep (a : Agent) (s : State) : Option State :=
  match s.cont a with
  | [] => none
  | m :: rest => some (runMicro m a rest s)

/-- Agent `a`'s remaining micro-steps with no other agent between, at most `fuel` of them (`@RUN` of R90). -/
def runRemaining (fuel : Nat) (a : Agent) (s : State) : State :=
  match fuel with
  | 0 => s
  | fuel + 1 =>
    match microStep a s with
    | none => s
    | some t => runRemaining fuel a t

end Sys2Proof.Machine
end

