-- ==== Sys2Proof/Syntax.lean ====
section
/-! DEFINITION. The commands of the block: one constructor per row of spec/opcode_table.json (R84), each operand at the width of its field (R80, R82). -/

namespace Sys2Proof

/-- The 21 commands. -/
inductive Instr where
  /-- `INIT` (R105). -/
  | init
  /-- `RESET` (R106). -/
  | reset
  /-- `SETROLLOVER value` (R107). -/
  | setRollover (value : Word)
  /-- `SETCOUNT value` (R108). -/
  | setCount (value : Word)
  /-- `GETCOUNT` (R109). -/
  | getCount
  /-- `GETTRIGGER` (R110). -/
  | getTrigger
  /-- `SETTRIGGER t` (R111). -/
  | setTrigger (t : Word)
  /-- `CANCELTRIGGER` (R112). -/
  | cancelTrigger
  /-- `REALIGN received_count, received_sub_tick` (R113). -/
  | realign (receivedCount : Word) (receivedSubTick : Half)
  /-- `ENABLE flags` (R150). -/
  | enable (flags : Byte)
  /-- `SOFTENABLE flags` (R151). -/
  | softEnable (flags : Byte)
  /-- `DISABLE flags` (R152). -/
  | disable (flags : Byte)
  /-- `HARDDISABLE` (R153). -/
  | hardDisable
  /-- `ONREQUEST` (R154). -/
  | onRequest
  /-- `OFFREQUEST` (R155). -/
  | offRequest
  /-- `RADIOON` (R156). -/
  | radioOn
  /-- `RADIOOFF` (R157). -/
  | radioOff
  /-- `SETCHANNEL ch` (R175). -/
  | setChannel (ch : Byte)
  /-- `UPDATECHANNEL` (R176). -/
  | updateChannel
  /-- `SETTXPOWER atten` (R177). -/
  | setTxPower (atten : Byte)
  /-- `UPDATETXPOWER` (R178). -/
  | updateTxPower
  deriving DecidableEq, Repr

end Sys2Proof
end

