-- ==== Sys2Proof/Machine/Dispatch.lean ====
section
/-! DEFINITION. What each command does when it is issued: one arm per constructor of Instr, each one call of its meaning. -/

namespace Sys2Proof.Machine

/-- The first step of a command, its whole body for a single-step command (R63, R104). -/
def exec (i : Instr) (s : State) : Host.Outcome State Fault Refusal :=
  match i with
  | .init => Sys2Proof.Machine.execInit s
  | .reset => Sys2Proof.Machine.execReset s
  | .setRollover value => Sys2Proof.Machine.execSetRollover value s
  | .setCount value => Sys2Proof.Machine.execSetCount value s
  | .getCount => Sys2Proof.Machine.execGetCount s
  | .getTrigger => Sys2Proof.Machine.execGetTrigger s
  | .setTrigger t => Sys2Proof.Machine.execSetTrigger t s
  | .cancelTrigger => Sys2Proof.Machine.execCancelTrigger s
  | .realign rc rst => Sys2Proof.Machine.execRealign rc rst s
  | .enable flags => Sys2Proof.Machine.execEnable flags s
  | .softEnable flags => Sys2Proof.Machine.execSoftEnable flags s
  | .disable flags => Sys2Proof.Machine.execDisable flags s
  | .hardDisable => Sys2Proof.Machine.execHardDisable s
  | .onRequest => Sys2Proof.Machine.execOnRequest s
  | .offRequest => Sys2Proof.Machine.execOffRequest s
  | .radioOn => Sys2Proof.Machine.execRadioOn s
  | .radioOff => Sys2Proof.Machine.execRadioOff s
  | .setChannel ch => Sys2Proof.Machine.execSetChannel ch s
  | .updateChannel => Sys2Proof.Machine.execUpdateChannel s
  | .setTxPower atten => Sys2Proof.Machine.execSetTxPower atten s
  | .updateTxPower => Sys2Proof.Machine.execUpdateTxPower s

end Sys2Proof.Machine
end

