-- ==== Sys2Proof/Decode.lean ====
section
/-! DEFINITION. Command encoding (30_encoding.md): the fields of R80, the opcode table of R84, the total decoder of R81 and the encoder. -/

namespace Sys2Proof

/-- The four formats of R80. -/
inductive Format where
  | f0
  | fb
  | fw
  | fwh
  deriving DecidableEq, Repr

/-- The rows of the opcode table (R84). -/
inductive Opcode where
  | init
  | reset
  | setRollover
  | setCount
  | getCount
  | getTrigger
  | setTrigger
  | cancelTrigger
  | realign
  | enable
  | softEnable
  | disable
  | hardDisable
  | onRequest
  | offRequest
  | radioOn
  | radioOff
  | setChannel
  | updateChannel
  | setTxPower
  | updateTxPower
  deriving DecidableEq, Repr

/-- Why a word is no command (R81, R85, R86). -/
inductive DecodeError where
  /-- The opcode is in no row of R84. -/
  | illegalOpcode
  /-- A field the row's format requires to be zero is not. -/
  | reservedField
  deriving DecidableEq, Repr

/-- The `op` column of R84. -/
def Opcode.code : Opcode → Byte
  | .init => 0x01
  | .reset => 0x02
  | .setRollover => 0x03
  | .setCount => 0x04
  | .getCount => 0x05
  | .getTrigger => 0x06
  | .setTrigger => 0x07
  | .cancelTrigger => 0x08
  | .realign => 0x09
  | .enable => 0x10
  | .softEnable => 0x11
  | .disable => 0x12
  | .hardDisable => 0x13
  | .onRequest => 0x14
  | .offRequest => 0x15
  | .radioOn => 0x16
  | .radioOff => 0x17
  | .setChannel => 0x20
  | .updateChannel => 0x21
  | .setTxPower => 0x22
  | .updateTxPower => 0x23

/-- The `format` column of R84. -/
def Opcode.format : Opcode → Format
  | .init | .reset | .getCount | .getTrigger | .cancelTrigger => .f0
  | .setRollover | .setCount | .setTrigger => .fw
  | .realign => .fwh
  | .enable | .softEnable | .disable => .fb
  | .hardDisable | .onRequest | .offRequest | .radioOn | .radioOff => .f0
  | .setChannel | .setTxPower => .fb
  | .updateChannel | .updateTxPower => .f0

/-- The row an opcode byte selects; none for the illegal opcodes of R85. -/
def Opcode.ofByte (b : Byte) : Option Opcode :=
  match b.toNat with
  | 0x01 => some .init
  | 0x02 => some .reset
  | 0x03 => some .setRollover
  | 0x04 => some .setCount
  | 0x05 => some .getCount
  | 0x06 => some .getTrigger
  | 0x07 => some .setTrigger
  | 0x08 => some .cancelTrigger
  | 0x09 => some .realign
  | 0x10 => some .enable
  | 0x11 => some .softEnable
  | 0x12 => some .disable
  | 0x13 => some .hardDisable
  | 0x14 => some .onRequest
  | 0x15 => some .offRequest
  | 0x16 => some .radioOn
  | 0x17 => some .radioOff
  | 0x20 => some .setChannel
  | 0x21 => some .updateChannel
  | 0x22 => some .setTxPower
  | 0x23 => some .updateTxPower
  | _ => none

/-- `op = w[63:56]` (R80). -/
def opField (w : Command) : Byte := w.extractLsb' 56 8

/-- `b8 = w[55:48]` (R80). -/
def b8Field (w : Command) : Byte := w.extractLsb' 48 8

/-- `h16 = w[47:32]` (R80). -/
def h16Field (w : Command) : Half := w.extractLsb' 32 16

/-- `w32 = w[31:0]` (R80). -/
def w32Field (w : Command) : Word := w.extractLsb' 0 32

/-- A command word from its four fields (R80). -/
def packFields (op b8 : Byte) (h16 : Half) (w32 : Word) : Command := op ++ b8 ++ h16 ++ w32

/-- The fields a format requires to be zero are zero (R80, R86). -/
def reservedZero (f : Format) (w : Command) : Bool :=
  match f with
  | .f0 => b8Field w == 0 && h16Field w == 0 && w32Field w == 0
  | .fb => h16Field w == 0 && w32Field w == 0
  | .fw => b8Field w == 0 && h16Field w == 0
  | .fwh => b8Field w == 0

/-- The row's command with its operands taken from the fields, unsigned and unscaled (R82). -/
def operands (o : Opcode) (w : Command) : Instr :=
  match o with
  | .init => .init
  | .reset => .reset
  | .setRollover => .setRollover (w32Field w)
  | .setCount => .setCount (w32Field w)
  | .getCount => .getCount
  | .getTrigger => .getTrigger
  | .setTrigger => .setTrigger (w32Field w)
  | .cancelTrigger => .cancelTrigger
  | .realign => .realign (w32Field w) (h16Field w)
  | .enable => .enable (b8Field w)
  | .softEnable => .softEnable (b8Field w)
  | .disable => .disable (b8Field w)
  | .hardDisable => .hardDisable
  | .onRequest => .onRequest
  | .offRequest => .offRequest
  | .radioOn => .radioOn
  | .radioOff => .radioOff
  | .setChannel => .setChannel (b8Field w)
  | .updateChannel => .updateChannel
  | .setTxPower => .setTxPower (b8Field w)
  | .updateTxPower => .updateTxPower

/-- The decoder of R81: total on all `2^64` words, the opcode checked before the reserved fields. -/
def decode (w : Command) : Except DecodeError Instr :=
  match Opcode.ofByte (opField w) with
  | none => .error .illegalOpcode
  | some o => if reservedZero o.format w then .ok (operands o w) else .error .reservedField

/-- The row of the opcode table a command belongs to. -/
def Instr.opcode : Instr → Opcode
  | .init => .init
  | .reset => .reset
  | .setRollover _ => .setRollover
  | .setCount _ => .setCount
  | .getCount => .getCount
  | .getTrigger => .getTrigger
  | .setTrigger _ => .setTrigger
  | .cancelTrigger => .cancelTrigger
  | .realign _ _ => .realign
  | .enable _ => .enable
  | .softEnable _ => .softEnable
  | .disable _ => .disable
  | .hardDisable => .hardDisable
  | .onRequest => .onRequest
  | .offRequest => .offRequest
  | .radioOn => .radioOn
  | .radioOff => .radioOff
  | .setChannel _ => .setChannel
  | .updateChannel => .updateChannel
  | .setTxPower _ => .setTxPower
  | .updateTxPower => .updateTxPower

/-- A command's 8-bit operand, 0 where its format has none (R80). -/
def Instr.b8 : Instr → Byte
  | .enable f | .softEnable f | .disable f => f
  | .setChannel ch => ch
  | .setTxPower atten => atten
  | _ => 0

/-- A command's 16-bit operand, 0 where its format has none (R80). -/
def Instr.h16 : Instr → Half
  | .realign _ subTick => subTick
  | _ => 0

/-- A command's 32-bit operand, 0 where its format has none (R80). -/
def Instr.w32 : Instr → Word
  | .setRollover v | .setCount v | .setTrigger v | .realign v _ => v
  | _ => 0

/-- The word of a command (R80, R84). -/
def encode (i : Instr) : Command := packFields i.opcode.code i.b8 i.h16 i.w32

/-- The `mask` column of R84: the opcode, and the fields the format requires to be zero. -/
def Opcode.mask (o : Opcode) : Command :=
  match o.format with
  | .f0 => 0xFFFFFFFFFFFFFFFF
  | .fb => 0xFF00FFFFFFFFFFFF
  | .fw => 0xFFFFFFFF00000000
  | .fwh => 0xFFFF000000000000

/-- The `match` column of R84. -/
def Opcode.pattern (o : Opcode) : Command := packFields o.code 0 0 0

/-- All rows of R84, in the table's order. -/
def Opcode.all : List Opcode :=
  [.init, .reset, .setRollover, .setCount, .getCount, .getTrigger, .setTrigger, .cancelTrigger, .realign] ++
  [.enable, .softEnable, .disable, .hardDisable, .onRequest, .offRequest, .radioOn, .radioOff] ++
  [.setChannel, .updateChannel, .setTxPower, .updateTxPower]

/-- `{hi, lo}`: the command word of the two window halves (R63, R65). -/
def joinHalves (hi lo : Word) : Command := hi ++ lo

/-- The high half of a command word, which `CMD_HI` carries (R61). -/
def highHalf (w : Command) : Word := w.extractLsb' 32 32

/-- The low half of a command word, which `CMD_LO` carries (R61). -/
def lowHalf (w : Command) : Word := w.extractLsb' 0 32

/-- The 64 bits of an instruction of `nbits` bits, numbered as the opcode table numbers them (bit 0 the least significant of the first word), the bits above `nbits` zero. -/
def tableWord (nbits w : Nat) : Command := BitVec.ofNat 64 (w % 2 ^ nbits)

/-- What the decoder reads from an opcode-table word, laid out as the window stores it: `CMD_LO` at the lower address (R65). -/
def decodeTableWord (nbits w : Nat) : Option Instr :=
  let c := tableWord nbits w
  match decode (joinHalves (highHalf c) (lowHalf c)) with
  | .ok i => some i
  | .error _ => none

end Sys2Proof
end

