-- ==== Sys2Proof/Machine/Flags.lean ====
section
/-! DEFINITION. Encodings the host sees: compare states (R27), fault codes (R201), the STATUS word (R62) and the other packed window words (R61). -/

namespace Sys2Proof.Machine

/-- The encoding column of R27. -/
def CompareState.bits : CompareState → BitVec 3
  | .rollover => 0b001
  | .trigger => 0b010
  | .rolloverAndTrigger => 0b011
  | .rolloverAndArmTrigger => 0b101

/-- The code column of R201. -/
def FaultCode.number : FaultCode → Byte
  | .illegalOpcode => 0x01
  | .reservedField => 0x02
  | .badAccess => 0x03
  | .busy => 0x04
  | .notInitialised => 0x05
  | .triggerUnwritten => 0x06
  | .resetIe => 0x07
  | .rolloverNotAboveCount => 0x08
  | .setCountState => 0x09
  | .setCountRange => 0x0A
  | .triggerRange => 0x0B
  | .realignTxActive => 0x0C
  | .flagsZero => 0x0D
  | .channelRange => 0x0E

/-- The fault a decode error raises (R81). -/
def decodeFault : DecodeError → FaultCode
  | .illegalOpcode => .illegalOpcode
  | .reservedField => .reservedField

/-- STATUS[2:0]: `0b000` before the first `INIT` (R62). -/
def statusCompareState (s : State) : BitVec 3 :=
  if s.clock.clockInitialised then s.clock.compareState.bits else 0b000

/-- STATUS[23:16]: 0 without a fault (R62). -/
def statusFaultCode (s : State) : Byte :=
  match s.fault with
  | some c => c.number
  | none => 0

/-- STATUS as agent `a` reads it, its fields from bit 31 down to bit 0 (R62). -/
def statusWord (a : Agent) (s : State) : Word :=
  (0 : BitVec 8) ++ statusFaultCode s ++ (0 : BitVec 4) ++
  BitVec.ofBool (!(s.cont a).isEmpty) ++
  BitVec.ofBool s.fault.isSome ++
  BitVec.ofBool (s.clock.isrPhase == .triggerCallbackDue) ++
  BitVec.ofBool s.clock.triggerWritten ++
  BitVec.ofBool s.clock.clockInitialised ++
  BitVec.ofBool s.clock.cmpIe ++
  BitVec.ofBool s.clock.cmpPending ++
  BitVec.ofBool s.arbiter.dbgLed ++
  BitVec.ofBool s.arbiter.rxOn ++
  statusCompareState s

/-- SUBTICK (R61). -/
def subtickWord (s : State) : Word := (0 : Half) ++ s.clock.subtick

/-- ENABLE_FLAGS (R61). -/
def enableFlagsWord (s : State) : Word := (0 : BitVec 24) ++ s.arbiter.enableFlags

/-- CHANNEL: the applied copy above the requested one (R61). -/
def channelWord (s : State) : Word := (0 : Half) ++ s.radio.appliedChannel ++ s.radio.requestedChannel

/-- TXPOWER: the applied copy above the requested one (R61). -/
def txPowerWord (s : State) : Word := (0 : Half) ++ s.radio.appliedTxPower ++ s.radio.requestedTxPower

/-- INPUTS (R61). -/
def inputsWord (i : Inputs) : Word :=
  (0 : BitVec 28) ++ BitVec.ofBool i.gie ++ BitVec.ofBool i.txFrameAlreadyDequeued ++
  BitVec.ofBool i.txActive ++ BitVec.ofBool i.rxActive

/-- DELAY_HOLD: `min(delay_hold, 2^32 - 1)` (R61). -/
def delayHoldWord (s : State) : Word := BitVec.ofNat 32 (min s.clock.delayHold (2 ^ 32 - 1))

end Sys2Proof.Machine
end

