-- ==== Sys2Proof/Machine/Window.lean ====
section
/-! DEFINITION. The register window (20_memory.md R60 to R66): which accesses are admitted, what a read returns, the byte view, and the host's absolute addresses. -/

namespace Sys2Proof.Machine

/-- A register that may be read only once the clock is initialised (the "init" mark of R61). -/
def initOnly (s : State) (v : Word) : Except FaultCode Word :=
  if s.clock.clockInitialised then .ok v else .error .notInitialised

/-- The register at an aligned offset, as caller `c` reads it (the map of R61). -/
def readRegister (c : Caller) (offset : Nat) (s : State) : Except FaultCode Word :=
  match offset with
  | 0x00 => .ok (s.cmdLo c)
  | 0x04 => .ok (s.cmdHi c)
  | 0x08 => .ok s.result
  | 0x0C => .ok (statusWord c.agent s)
  | 0x10 => initOnly s s.clock.rollover
  | 0x14 => initOnly s s.clock.count
  | 0x18 => initOnly s s.clock.compare
  | 0x1C => if s.clock.triggerWritten then .ok s.clock.trigger else .error .triggerUnwritten
  | 0x20 => initOnly s (subtickWord s)
  | 0x24 => .ok (enableFlagsWord s)
  | 0x28 => .ok (channelWord s)
  | 0x2C => .ok (txPowerWord s)
  | 0x30 => .ok (inputsWord s.inputs)
  | 0x34 => .ok (delayHoldWord s)
  | _ => .error .badAccess

/-- What a read access returns, or the fault it raises (R61, R64). -/
def readWindow (c : Caller) (offset width : Nat) (s : State) : Except FaultCode Word :=
  if width = 4 then readRegister c offset s else .error .badAccess

/-- The byte of the window at an offset: bits `8j+7..8j` of the register at `4k`, for offset `4k + j` (R65). -/
def windowByte (c : Caller) (offset : Nat) (s : State) : Except FaultCode Byte :=
  match readRegister c (offset / 4 * 4) s with
  | .ok w => .ok (w.extractLsb' (8 * (offset % 4)) 8)
  | .error e => .error e

/-- A read access (R61, R66). -/
def readAccess (c : Caller) (offset width : Nat) (s : State) : State :=
  match readWindow c offset width s with
  | .ok v => s.deliver v
  | .error e => s.raise e

/-- A write access issues a command when it is the 32-bit write at the offset of `CMD_HI` (R63). -/
def issues (a : Access) : Bool :=
  match a with
  | .write offset width _ => decide (offset = 0x04) && decide (width = 4)
  | .read _ _ => false

/-- A write access that issues no command: the `CMD_LO` latch, or a bad access (R64, R66). -/
def latchAccess (c : Caller) (offset width : Nat) (v : Word) (s : State) : State :=
  if offset = 0x00 ∧ width = 4 then s.latchLo c v else s.raise .badAccess

/-- The read of STATUS, the one access a halted block still answers (R62). -/
def inspects (x : Stimulus) : Option Caller :=
  match x with
  | .access c (.read 0x0C 4) => some c
  | _ => none

/-- `MemRead(addr, n)` by caller `c`, as a step of a run; an address below the window does not reach the block (R12, R60; log 11). -/
def memRead (p : Params) (c : Caller) (addr n : Nat) : Option Stimulus :=
  if p.windowBase ≤ addr then some (.access c (.read (addr - p.windowBase) n)) else none

/-- `MemWrite(addr, n, v)` by caller `c`, as a step of a run (R12, R60; log 11). -/
def memWrite (p : Params) (c : Caller) (addr n : Nat) (v : Word) : Option Stimulus :=
  if p.windowBase ≤ addr then some (.access c (.write (addr - p.windowBase) n v)) else none

end Sys2Proof.Machine
end

