-- ==== Sys2Proof/Machine/Schedule.lean ====
section
/-! DEFINITION. Which agent has a step (R211, R212), what each scheduled step does, issuing a command (R63, R103), and where the next step comes from (log 1). -/

namespace Sys2Proof.Machine

/-- FG has a step: no interrupt handler is in progress (R212 (1)). -/
def fgFree (s : State) : Bool :=
  (s.clock.isrPhase == .idle) && s.conts.envRadio.isEmpty && s.conts.isrCmp.isEmpty

/-- ENV_RADIO may issue a command (R212 (3)). -/
def envMayIssue (s : State) : Bool := s.inputs.gie || !s.conts.envRadio.isEmpty

/-- The caller may perform the access now (R212; log 14). -/
def mayAccess (c : Caller) (a : Access) (s : State) : Bool :=
  match c with
  | .fg => fgFree s
  | .envRadio => !issues a || envMayIssue s

/-- The caller may run a micro-step now, if it has one (R212). -/
def mayContinue (c : Caller) (s : State) : Bool :=
  match c with
  | .fg => fgFree s
  | .envRadio => true

/-- The sequencer's start condition (R211); that no `atomic` step is in progress holds between steps. -/
def isrMayStart (s : State) : Bool :=
  s.fault.isNone && s.clock.clockInitialised && s.clock.cmpPending && s.clock.cmpIe && s.inputs.gie &&
  (s.clock.isrPhase == .idle)

/-- TIMER has a step (R100). -/
def timerRuns (s : State) : Bool := s.clock.clockInitialised && s.fault.isNone

/-- The `CMD_HI` write of caller `c` (R63): the word is formed and decoded and the command's first step executed, in the order of R103. A word that is no command still meets check (1) first. -/
def issue (c : Caller) (hi : Word) (s : State) : Answer :=
  match decode (joinHalves hi (s.cmdLo c)) with
  | .ok i => onNext (fun t => t.latchHi c hi) (exec i (s.asCaller c))
  | .error e => command false (fun t => t.raise (decodeFault e)) (s.asCaller c)

/-- A window access of caller `c` (R61 to R66). -/
def accessStep (c : Caller) (a : Access) (s : State) : Answer :=
  match a with
  | .read offset width => .next (readAccess c offset width s)
  | .write offset width v =>
    if issues (.write offset width v) then issue c v s else .next (latchAccess c offset width v s)

/-- A step an agent may take, or the refusal that says it has none (log 3). -/
def whenEnabled (enabled : Bool) (a : Agent) (o : Answer) : Answer := if enabled then o else .refused (.noStep a)

/-- The next micro-step of agent `a` (R39). -/
def microAnswer (a : Agent) (s : State) : Answer :=
  match microStep a s with
  | some t => .next t
  | none => .refused (.noStep a)

/-- ISR_CMP's next step: a micro-step if it had one, else phase B when the callback is owed, else phase A when it may start (R39, R122, R211). -/
def isrStep (s : State) : Answer :=
  if !s.conts.isrCmp.isEmpty then microAnswer .isrCmp s
  else if s.clock.isrPhase = .triggerCallbackDue then .next (returnFromInterrupt s)
  else whenEnabled (isrMayStart s) .isrCmp (.next (takeCompareInterrupt s))

/-- One scheduled step of an unfaulted block (R13, R70). The activity inputs change at any step boundary (R212 (4)). DESIGN CHOICE, safe (log 23): `gie` does too, also while FG is preempted; the spec does not say when the host CPU may change it. -/
def runStimulus (x : Stimulus) (s : State) : Answer :=
  match x with
  | .access c a => whenEnabled (mayAccess c a s) c.agent (accessStep c a s)
  | .micro c => whenEnabled (mayContinue c s) c.agent (microAnswer c.agent s)
  | .isr => isrStep s
  | .tick => whenEnabled (timerRuns s) .timer (.next (timerTick s))
  | .drive i v => .next (s.drive i v)

/-- The next step of the run: the first of the script, or, once it is empty, a free choice of the environment (log 1). -/
def nextStimulus (s : State) : Stimulus :=
  match s.script with
  | [] => Config.freeStep s.freeCount
  | x :: _ => x

/-- The state from which the next step is taken: that step is no longer scheduled (log 1). -/
def consume (s : State) : State :=
  match s.script with
  | [] => { s with freeCount := s.freeCount + 1 }
  | _ :: rest => { s with script := rest }

/-- A step of a halted block: STATUS can be inspected, nothing else happens (R43, R62, R200; log 4). -/
def haltedStep (c : FaultCode) (x : Stimulus) (s : State) : Answer :=
  match inspects x with
  | some a => .next (s.deliver (statusWord a.agent s))
  | none => .fault (.halted c)

/-- One step of the run. -/
def runStep (s : State) : Answer :=
  match s.fault with
  | some c => haltedStep c (nextStimulus s) (consume s)
  | none => runStimulus (nextStimulus s) (consume s)

end Sys2Proof.Machine
end

