-- ==== Sys2Proof/Machine/Step.lean ====
section
/-! DEFINITION. One step of the machine, and the state in which the next step issues a given command. -/

namespace Sys2Proof.Machine

/-- One indivisible step of the agent that is scheduled next (R70). -/
def step (s : State) : Host.Outcome State Fault Refusal := Sys2Proof.Machine.runStep s

/-- `s` with the word's low half in FG's `CMD_LO` and FG's write of its high half to `CMD_HI` scheduled next: the second of the two accesses that issue a command (R63; log 2). -/
def State.withFetchWord (s : State) (nbits w : Nat) : State :=
  { s.latchLo .fg (lowHalf (tableWord nbits w)) with
    script := .access .fg (.write 0x04 4 (highHalf (tableWord nbits w))) :: s.script }

end Sys2Proof.Machine
end

