-- ==== Sys2Proof/WellFormed.lean ====
section
/-! DEFINITION. Which commands can be written as words: a command as a caller states it, with operands that are plain numbers, is well formed when it has its format's operands and each fits its field unsigned (R80, R88). -/

namespace Sys2Proof

/-- A command before its operands are known to fit: a row of R84 and its immediates in source order. -/
structure RawCommand where
  opcode : Opcode
  immediates : List Nat
  deriving DecidableEq, Repr

/-- Every immediate of a format fits its field unsigned, and there are as many as the format takes; `FWH` has the 32-bit one first (R88). -/
def RawCommand.wellFormed (c : RawCommand) : Bool :=
  match c.opcode.format, c.immediates with
  | .f0, [] => true
  | .fb, [v] => decide (v < 2 ^ 8)
  | .fw, [v] => decide (v < 2 ^ 32)
  | .fwh, [v, h] => decide (v < 2 ^ 32) && decide (h < 2 ^ 16)
  | _, _ => false

/-- The operand fields `(b8, h16, w32)` the immediates of a format go to (R80, R88). -/
def RawCommand.fields (c : RawCommand) : Byte × Half × Word :=
  match c.opcode.format, c.immediates with
  | .fb, v :: _ => (BitVec.ofNat 8 v, 0, 0)
  | .fw, v :: _ => (0, 0, BitVec.ofNat 32 v)
  | .fwh, v :: h :: _ => (0, BitVec.ofNat 16 h, BitVec.ofNat 32 v)
  | _, _ => (0, 0, 0)

/-- The command a well-formed raw command is; an ill-formed one is none, "not a word" (R88). -/
def RawCommand.toInstr (c : RawCommand) : Option Instr :=
  if c.wellFormed then
    let (b8, h16, w32) := c.fields
    some (operands c.opcode (packFields c.opcode.code b8 h16 w32))
  else none

/-- A command as a caller states it. -/
def Instr.toRaw (i : Instr) : RawCommand :=
  match i.opcode.format with
  | .f0 => ⟨i.opcode, []⟩
  | .fb => ⟨i.opcode, [i.b8.toNat]⟩
  | .fw => ⟨i.opcode, [i.w32.toNat]⟩
  | .fwh => ⟨i.opcode, [i.w32.toNat, i.h16.toNat]⟩

/-- A command can be written as a word. Operands are typed by their field's width, so every command can (`Instr.wellFormed_all`). -/
abbrev Instr.WellFormed (i : Instr) : Prop := i.toRaw.wellFormed = true

end Sys2Proof
end

