-- ==== Sys2Proof/Machine/Assembler.lean ====
section
/-! DEFINITION. The assembler syntax of R88: a line of text to the command it states, or why it is none. There are no pseudo-instructions (R89). -/

namespace Sys2Proof.Machine

/-- Why a line is no command (R88; log 21). -/
inductive AsmError where
  /-- Its first word is no mnemonic of R84. -/
  | unknownMnemonic
  /-- An operand is neither a decimal nor a `0x` hexadecimal number. -/
  | badImmediate
  /-- Too few or too many operands, or one that does not fit its field. -/
  | doesNotFit
  deriving DecidableEq, Repr

/-- The mnemonic column of R84. -/
def mnemonic : Opcode → String
  | .init => "INIT"
  | .reset => "RESET"
  | .setRollover => "SETROLLOVER"
  | .setCount => "SETCOUNT"
  | .getCount => "GETCOUNT"
  | .getTrigger => "GETTRIGGER"
  | .setTrigger => "SETTRIGGER"
  | .cancelTrigger => "CANCELTRIGGER"
  | .realign => "REALIGN"
  | .enable => "ENABLE"
  | .softEnable => "SOFTENABLE"
  | .disable => "DISABLE"
  | .hardDisable => "HARDDISABLE"
  | .onRequest => "ONREQUEST"
  | .offRequest => "OFFREQUEST"
  | .radioOn => "RADIOON"
  | .radioOff => "RADIOOFF"
  | .setChannel => "SETCHANNEL"
  | .updateChannel => "UPDATECHANNEL"
  | .setTxPower => "SETTXPOWER"
  | .updateTxPower => "UPDATETXPOWER"

/-- The row a mnemonic names. -/
def opcodeNamed (cs : List Char) : Option Opcode := Opcode.all.find? fun o => (mnemonic o).toList == cs

/-- The value of a digit below `base`. -/
def digitValue (base : Nat) (c : Char) : Option Nat :=
  let n := c.toNat
  let v :=
    if 48 ≤ n ∧ n ≤ 57 then n - 48
    else if 97 ≤ n ∧ n ≤ 102 then n - 87
    else if 65 ≤ n ∧ n ≤ 70 then n - 55
    else base
  if v < base then some v else none

/-- The digits of a number, most significant first, after `acc`. -/
def digitsFrom (base acc : Nat) : List Char → Option Nat
  | [] => some acc
  | c :: cs =>
    match digitValue base c with
    | some v => digitsFrom base (acc * base + v) cs
    | none => none

/-- An immediate: decimal, or hexadecimal after `0x` (R88). -/
def immediate (cs : List Char) : Option Nat :=
  match cs with
  | [] => none
  | '0' :: 'x' :: [] => none
  | '0' :: 'x' :: digits => digitsFrom 16 0 digits
  | _ => digitsFrom 10 0 cs

/-- The operands of a line, separated by a comma and a space (R88); `piece` is the current one, reversed. -/
def splitOperands (piece : List Char) : List Char → List (List Char)
  | [] => [piece.reverse]
  | ',' :: ' ' :: cs => piece.reverse :: splitOperands [] cs
  | c :: cs => splitOperands (c :: piece) cs

/-- A line without its comment and the spaces before it (R88). -/
def codePart (line : List Char) : List Char :=
  ((line.takeWhile (· != ';')).reverse.dropWhile (· == ' ')).reverse

/-- The immediates after the mnemonic. -/
def immediatesOf (cs : List Char) : Option (List Nat) :=
  match cs with
  | [] => some []
  | _ :: ops => (splitOperands [] ops).mapM immediate

/-- The command a line states; a line of comment alone states none (R88). -/
def assembleChars (line : List Char) : Except AsmError (Option Instr) :=
  match codePart line with
  | [] => .ok none
  | cs =>
    match opcodeNamed (cs.takeWhile (· != ' ')) with
    | none => .error .unknownMnemonic
    | some o =>
      match immediatesOf (cs.dropWhile (· != ' ')) with
      | none => .error .badImmediate
      | some vs =>
        match RawCommand.toInstr ⟨o, vs⟩ with
        | none => .error .doesNotFit
        | some i => .ok (some i)

/-- The command a line of text states (R88). -/
def assemble (line : String) : Except AsmError (Option Instr) := assembleChars line.toList

end Sys2Proof.Machine
end

