-- ==== Sys2Proof/Machine/Harness.lean ====
section
/-! DEFINITION. The harness directives of R90, as the steps of a run each stands for. They are no commands and have no encoding. -/

namespace Sys2Proof.Machine

/-- The directives of R90. -/
inductive Directive where
  /-- `@TICKS n`. -/
  | ticks (n : Nat)
  /-- `@ISR`. -/
  | isr
  /-- `@SET input=v`. -/
  | set (i : InputLine) (v : Bool)
  /-- `@RUN`, of the agent that issued last. -/
  | run (c : Caller)
  deriving DecidableEq, Repr

/-- Every step ISR_CMP has enabled, at most `fuel` of them; an owed phase B, one phase A and its phase B are three. -/
def isrRun (fuel : Nat) (s : State) : List Stimulus :=
  match fuel with
  | 0 => []
  | fuel + 1 =>
    match isrStep s with
    | .next t => .isr :: isrRun fuel t
    | _ => []

/-- How many micro-steps agent `a` has left when no other agent steps, at most `fuel`. -/
def microsLeft (fuel : Nat) (a : Agent) (s : State) : Nat :=
  match fuel with
  | 0 => 0
  | fuel + 1 =>
    match microStep a s with
    | none => 0
    | some t => microsLeft fuel a t + 1

/-- The longest chain of micro-steps a command leaves: `SETCHANNEL` step 2, then `UPDATECHANNEL` whole (R175, R176). -/
def maxMicros : Nat := 6

/-- The steps a directive stands for, from a state (R90). -/
def Directive.stimuli (d : Directive) (s : State) : List Stimulus :=
  match d with
  | .ticks n => List.replicate n .tick
  | .isr => isrRun 3 s
  | .set i v => [.drive i v]
  | .run c => List.replicate (microsLeft maxMicros c.agent s) (.micro c)

end Sys2Proof.Machine
end

