-- ==== Sys2Proof/Safety.lean ====
section
/-! DEFINITION. What claims speak of: runs without a contract violation, what the next step of a run is, the invariants of the machine, and what can be seen before the registers without a power-on value are written. -/

namespace Sys2Proof.Machine

/-- The premise a claim about a run takes (R200): after `n` steps the machine is at `t` and no contract was violated. -/
def ReachesUnfaulted (n : Nat) (s t : State) : Prop := Sys2Proof.core.run n s = .next t ∧ t.fault = none

/-- The issuing agent has no micro-steps left, so it may issue a command (R39, R103 (1)). -/
abbrev Ready (s : State) : Prop := s.cont s.issuer = []

/-- A BackoffClock command passes the prologue (R34, R103 (1), (3)). -/
abbrev ClockReady (s : State) : Prop := Ready s ∧ s.clock.clockInitialised = true

/-- `s` with the step `x` scheduled next. -/
def State.schedule (s : State) (x : Stimulus) : State := { s with script := x :: s.script }

/-- The agent whose step a stimulus is (R13). The activity inputs are ENV_RADIO's (R13, R38). DESIGN CHOICE, safe (log 23): a change of `gie` is the host CPU's (R42, R90), which is no agent of R13, and is counted as ENV_RADIO's step. -/
def stimulusAgent : Stimulus → Agent
  | .access c _ | .micro c => c.agent
  | .isr => .isrCmp
  | .tick => .timer
  | .drive _ _ => .envRadio

/-- The receiver switched off, by whoever may: the flag, the indicator and, if it was on, the event (R37, R141). -/
def receiverOff (s : State) : State :=
  { s with
    arbiter := { s.arbiter with rxOn := false, dbgLed := if s.arbiter.rxOn then false else s.arbiter.dbgLed }
    out := s.out ++ (if s.arbiter.rxOn then [.hwRxOff] else []) }

/-- The receiver switched on: the flag, the indicator and, if it was off, the event (R37, R140). -/
def receiverOn (s : State) : State :=
  { s with
    arbiter := { s.arbiter with rxOn := true, dbgLed := if s.arbiter.rxOn then s.arbiter.dbgLed else true }
    out := s.out ++ (if s.arbiter.rxOn then [] else [.hwRxOn]) }

/-- OffRequest run to its end with nothing between its steps: nothing unless no flag is set and the activity inputs allow it, else off, flush and threshold clear (R142). -/
def offRequested (s : State) : State :=
  if s.arbiter.enableFlags = 0 ∧ s.inputs.rxActive = false ∧
      (s.inputs.txActive = false ∨ s.inputs.txFrameAlreadyDequeued = true) then
    { receiverOff s with out := (receiverOff s).out ++ [.hwFlushRxFifo, .hwClearRxThresholdIrq] }
  else s

/-- OnRequest run to its end with nothing between its steps (R154). -/
def onRequested (s : State) : State := if s.arbiter.enableFlags = 0 then s else receiverOn s

/-- UpdateChannel run to its end with nothing between its steps: applied, off, channel written, on request (R176). -/
def channelUpdated (s : State) : State :=
  if s.radio.requestedChannel = s.radio.appliedChannel then s
  else
    let t := receiverOff { s with radio := { s.radio with appliedChannel := s.radio.requestedChannel } }
    onRequested { t with out := t.out ++ [.hwSetChannel s.radio.requestedChannel] }

/-- UpdateTxPower (R178). -/
def powerUpdated (s : State) : State :=
  if s.radio.requestedTxPower = s.radio.appliedTxPower then s
  else { s with
    radio := { s.radio with appliedTxPower := s.radio.requestedTxPower }
    out := s.out ++ [.hwSetTxPower s.radio.requestedTxPower] }

/-- The command the next step of the run issues, where it is a `CMD_HI` write of a word that is one (R63). -/
def issuedNext (s : State) : Option Instr :=
  match nextStimulus s with
  | .access c (.write 0x04 4 hi) =>
    match decode (joinHalves hi (s.cmdLo c)) with
    | .ok i => some i
    | .error _ => none
  | _ => none

/-- The micro-step the next step of the run runs (R39). -/
def microNext (s : State) : Option MicroStep :=
  match nextStimulus s with
  | .micro c => (s.cont c.agent).head?
  | .isr => s.conts.isrCmp.head?
  | _ => none

/-- `HW_RX_ON` and `HW_RX_OFF` alternate in `l`, the receiver being on or off before it as `on` says (R145). -/
def togglesAlternate (on : Bool) : List Event → Bool
  | [] => true
  | .hwRxOn :: l => !on && togglesAlternate true l
  | .hwRxOff :: l => on && togglesAlternate false l
  | _ :: l => togglesAlternate on l

/-- Whether the receiver is on after the toggles of `l`. -/
def receiverAfter (on : Bool) : List Event → Bool
  | [] => on
  | .hwRxOn :: l => receiverAfter true l
  | .hwRxOff :: l => receiverAfter false l
  | _ :: l => receiverAfter on l

/-- The receiver flag, the debug indicator and the events agree (R37, R145). -/
abbrev ReceiverInv (s : State) : Prop :=
  s.arbiter.dbgLed = s.arbiter.rxOn ∧ togglesAlternate false s.out = true ∧
  receiverAfter false s.out = s.arbiter.rxOn

/-- Once the clock runs: the rollover is positive, the sub-tick is inside the period, a compare state with the rollover bit compares with the rollover, and a trigger state has a written trigger (R22, R27, R28, R108, R111). -/
abbrev ClockInv (s : State) : Prop :=
  s.clock.clockInitialised = true →
    0 < s.clock.rollover ∧
    s.clock.subtick < s.cfg.ticksPerBackoff ∧
    (s.clock.compareState.hasRollover = true → s.clock.compare = s.clock.rollover) ∧
    (s.clock.compareState = .rolloverAndTrigger → s.clock.trigger = 0) ∧
    (s.clock.compareState = .rolloverAndArmTrigger → 0 < s.clock.trigger) ∧
    (s.clock.compareState ≠ .rollover → s.clock.triggerWritten = true)

/-- The micro-step is one of `REALIGN`'s. -/
def isRealign : MicroStep → Bool
  | .realignDelay _ | .realignWrite _ _ => true
  | _ => false

/-- Before the first `INIT` or `RESET` nothing of the clock has moved (R29 to R32, R34). -/
abbrev QuietInv (s : State) : Prop :=
  s.clock.clockInitialised = false →
    s.clock.cmpPending = false ∧ s.clock.cmpIe = false ∧ s.clock.delayHold = 0 ∧ s.clock.isrPhase = .idle ∧
    s.clock.triggerWritten = false ∧
    s.conts.fg.all (fun m => !isRealign m) = true ∧ s.conts.envRadio.all (fun m => !isRealign m) = true ∧
    s.conts.isrCmp.all (fun m => !isRealign m) = true

/-- What can be left of a command (R117, R142, R150 to R155, R175 to R178). -/
def legalCont : List MicroStep → Bool
  | [] => true
  | [.realignDelay _, .realignWrite _ _] | [.realignWrite _ _] => true
  | [.radioOn] | [.offRequest1] | [.offRequest2] => true
  | [.radioOff, .haltCleanup, .serviceTx] | [.haltCleanup, .serviceTx] | [.serviceTx] => true
  | [.setChannel2] | [.updateChannel1] => true
  | [.radioOff, .writeChannel _, .onRequest1] | [.writeChannel _, .onRequest1] | [.onRequest1] => true
  | [.setTxPower2] | [.updateTxPower] => true
  | _ => false

/-- Every agent's remaining micro-steps are what is left of one command, and ISR_CMP, which issues none, has none (R39, R220). -/
abbrev ContInv (s : State) : Prop :=
  legalCont s.conts.fg = true ∧ legalCont s.conts.envRadio = true ∧ s.conts.isrCmp = []

/-- Only channels `P_CH_MIN` to `P_CH_MAX` are requested, applied, about to be written, or written to the radio (R175). -/
abbrev ChannelInv (s : State) : Prop :=
  channelInRange s.cfg s.radio.requestedChannel = true ∧ channelInRange s.cfg s.radio.appliedChannel = true ∧
  (∀ a ch, MicroStep.writeChannel ch ∈ s.cont a → channelInRange s.cfg ch = true) ∧
  (∀ ch, Event.hwSetChannel ch ∈ s.out → channelInRange s.cfg ch = true)

/-- A power register value the platform has: the power-on one or an entry of the table. -/
def powerKnown (p : Params) (v : Byte) : Bool := v == p.txPowerInit || p.txPowerTable.contains v

/-- Only power values of the platform are requested, applied or written to the radio (R177, R178). -/
abbrev PowerInv (s : State) : Prop :=
  powerKnown s.cfg s.radio.requestedTxPower = true ∧ powerKnown s.cfg s.radio.appliedTxPower = true ∧
  (∀ v, Event.hwSetTxPower v ∈ s.out → powerKnown s.cfg v = true)

/-- The clock with every register the spec gives no power-on value blanked while it has none: the five of R34 before `INIT`, the trigger before `SETTRIGGER` (R26). -/
def visibleClock (c : Clock) : Clock :=
  let c := if c.triggerWritten then c else { c with trigger := 0 }
  if c.clockInitialised then c
  else { c with rollover := 0, count := 0, compare := 0, compareState := .rollover, subtick := 0 }

/-- The state with the registers that have no value yet blanked (R26, R34). -/
def visible (s : State) : State := { s with clock := visibleClock s.clock }

/-- `n` ticks with no other step between them (`@TICKS n` of R90). -/
def ticks (n : Nat) (s : State) : State :=
  match n with
  | 0 => s
  | n + 1 => ticks n (timerTick s)

end Sys2Proof.Machine
end

