-- ==== Sys2Proof/Certificates/Slice0/Obligations.lean ====
section
/-! DEFINITION. The statements for the provers, each a Prop: from the spec's numbered rules, family by family, then the invariants and the rules of the whole machine. -/

open Sys2Proof
open Sys2Proof.Machine

/-! ## Encoding (30_encoding.md) -/

/-- R80, R81, R82, R84: decoding a command's word gives the command, every operand at every value. -/
def Obligations.DecodeOfEncode : Prop := ∀ i : Instr, decode (encode i) = .ok i

/-- R85: every legal word is exactly one command: a word that decodes is the word of what it decodes to. -/
def Obligations.EncodeOfDecode : Prop := ∀ (w : Command) (i : Instr), decode w = .ok i → encode i = w

/-- R84: a word decodes to a command of a row exactly when it has the row's match under the row's mask; the match column and the mask column of the table, in its order. -/
def Obligations.DecodeFollowsMatchAndMask : Prop :=
  (∀ (w : Command) (o : Opcode), decode w = .ok (operands o w) ↔ w &&& o.mask = o.pattern) ∧
  [Opcode.init, .reset, .setRollover, .setCount, .getCount, .getTrigger, .setTrigger, .cancelTrigger, .realign].map
      (fun o => (o.pattern, o.mask)) =
    [(0x0100000000000000, 0xFFFFFFFFFFFFFFFF), (0x0200000000000000, 0xFFFFFFFFFFFFFFFF),
     (0x0300000000000000, 0xFFFFFFFF00000000), (0x0400000000000000, 0xFFFFFFFF00000000),
     (0x0500000000000000, 0xFFFFFFFFFFFFFFFF), (0x0600000000000000, 0xFFFFFFFFFFFFFFFF),
     (0x0700000000000000, 0xFFFFFFFF00000000), (0x0800000000000000, 0xFFFFFFFFFFFFFFFF),
     (0x0900000000000000, 0xFFFF000000000000)] ∧
  [Opcode.enable, .softEnable, .disable, .hardDisable, .onRequest, .offRequest, .radioOn, .radioOff].map
      (fun o => (o.pattern, o.mask)) =
    [(0x1000000000000000, 0xFF00FFFFFFFFFFFF), (0x1100000000000000, 0xFF00FFFFFFFFFFFF),
     (0x1200000000000000, 0xFF00FFFFFFFFFFFF), (0x1300000000000000, 0xFFFFFFFFFFFFFFFF),
     (0x1400000000000000, 0xFFFFFFFFFFFFFFFF), (0x1500000000000000, 0xFFFFFFFFFFFFFFFF),
     (0x1600000000000000, 0xFFFFFFFFFFFFFFFF), (0x1700000000000000, 0xFFFFFFFFFFFFFFFF)] ∧
  [Opcode.setChannel, .updateChannel, .setTxPower, .updateTxPower].map (fun o => (o.pattern, o.mask)) =
    [(0x2000000000000000, 0xFF00FFFFFFFFFFFF), (0x2100000000000000, 0xFFFFFFFFFFFFFFFF),
     (0x2200000000000000, 0xFF00FFFFFFFFFFFF), (0x2300000000000000, 0xFFFFFFFFFFFFFFFF)]

/-- R81, R85, R86: a word is rejected as an illegal opcode exactly when its opcode is in no row, and as a reserved field exactly when it is in a row and the row's must-be-zero bits are not zero. -/
def Obligations.DecodeRejectsByName : Prop :=
  ∀ w : Command,
    (decode w = .error .illegalOpcode ↔ ∀ o ∈ Opcode.all, o.code ≠ opField w) ∧
    (decode w = .error .reservedField ↔ ∃ o ∈ Opcode.all, o.code = opField w ∧ w &&& o.mask ≠ o.pattern)

/-- R91: the spec's encoding examples. -/
def Obligations.EncodingExamples : Prop :=
  decode 0x0700000000000003 = .ok (.setTrigger 3) ∧
  decode 0x0900000F00000003 = .ok (.realign 3 15) ∧
  decode 0x1001000000000000 = .ok (.enable 1) ∧
  decode 0x200F000000000000 = .ok (.setChannel 15) ∧
  decode 0x0300000000000064 = .ok (.setRollover 100) ∧
  decode 0x0100000000000000 = .ok .init

/-! ## The window (20_memory.md) -/

/-- R63: when the word of `CMD_HI` and the caller's `CMD_LO` is a command, the step of the write to `CMD_HI` is `exec` of it, with the latch of `CMD_HI` after it; and the state the host places a command in (log 2) takes exactly that step. -/
def Obligations.StepRunsIssuedCommand : Prop :=
  (∀ (s : State) (c : Caller) (hi : Word) (i : Instr),
    s.fault = none → mayAccess c (.write 0x04 4 hi) s = true → decode (joinHalves hi (s.cmdLo c)) = .ok i →
    step (s.schedule (.access c (.write 0x04 4 hi))) = onNext (fun t => t.latchHi c hi) (exec i (s.asCaller c))) ∧
  (∀ (s : State) (nbits w : Nat) (i : Instr),
    s.fault = none → fgFree s = true → decodeTableWord nbits w = some i →
    step (s.withFetchWord nbits w) =
      onNext (fun t => t.latchHi .fg (highHalf (tableWord nbits w)))
        (exec i ((s.latchLo .fg (lowHalf (tableWord nbits w))).asCaller .fg)))

/-- R60, R63: the host's two writes at `P_WINDOW_BASE` and `P_WINDOW_BASE + 4` issue the command of the joined word, whatever the caller's `CMD_LO` held before. -/
def Obligations.TwoWritesIssueTheWord : Prop :=
  ∀ (s : State) (c : Caller) (lo hi : Word) (i : Instr),
    s.fault = none → mayAccess c (.write 0x04 4 hi) s = true → decode (joinHalves hi lo) = .ok i →
    ∃ x y t, memWrite s.cfg c (s.cfg.windowBase + 0x00) 4 lo = some x ∧
      memWrite s.cfg c (s.cfg.windowBase + 0x04) 4 hi = some y ∧
      step ((s.schedule y).schedule x) = .next t ∧
      step t = onNext (fun u => u.latchHi c hi) (exec i ((s.latchLo c lo).asCaller c))

/-- R103: the order of the checks of an issue: busy, then decode, then the clock, each changing only `fault`. -/
def Obligations.IssueCheckOrder : Prop :=
  ∀ (s : State) (c : Caller) (hi : Word),
    s.fault = none → mayAccess c (.write 0x04 4 hi) s = true →
    (s.cont c.agent ≠ [] →
      step (s.schedule (.access c (.write 0x04 4 hi))) = .next ((s.asCaller c).raise .busy)) ∧
    (s.cont c.agent = [] → decode (joinHalves hi (s.cmdLo c)) = .error .illegalOpcode →
      step (s.schedule (.access c (.write 0x04 4 hi))) = .next ((s.asCaller c).raise .illegalOpcode)) ∧
    (s.cont c.agent = [] → decode (joinHalves hi (s.cmdLo c)) = .error .reservedField →
      step (s.schedule (.access c (.write 0x04 4 hi))) = .next ((s.asCaller c).raise .reservedField)) ∧
    (∀ i, s.cont c.agent = [] → decode (joinHalves hi (s.cmdLo c)) = .ok i →
      0x03 ≤ i.opcode.code → i.opcode.code ≤ 0x09 → s.clock.clockInitialised = false →
      step (s.schedule (.access c (.write 0x04 4 hi))) = .next ((s.asCaller c).raise .notInitialised))

/-- R64: an access that is not a 32-bit access at an aligned offset below 0x38, or a write to a register that is read-only, raises CV_BAD_ACCESS and does nothing else. -/
def Obligations.BadAccessFaults : Prop :=
  ∀ (s : State) (c : Caller) (offset width : Nat) (v : Word),
    s.fault = none →
    (mayAccess c (.read offset width) s = true → width ≠ 4 ∨ offset % 4 ≠ 0 ∨ 0x38 ≤ offset →
      step (s.schedule (.access c (.read offset width))) = .next (s.raise .badAccess)) ∧
    (mayAccess c (.write offset width v) s = true → width ≠ 4 ∨ (offset ≠ 0x00 ∧ offset ≠ 0x04) →
      step (s.schedule (.access c (.write offset width v))) = .next (s.raise .badAccess))

/-- R61: what each register of the window reads as. -/
def Obligations.WindowRegisterMap : Prop :=
  ∀ (s : State) (c : Caller),
    readWindow c 0x00 4 s = .ok (s.cmdLo c) ∧
    readWindow c 0x04 4 s = .ok (s.cmdHi c) ∧
    readWindow c 0x08 4 s = .ok s.result ∧
    readWindow c 0x0C 4 s = .ok (statusWord c.agent s) ∧
    (s.clock.clockInitialised = true →
      readWindow c 0x10 4 s = .ok s.clock.rollover ∧ readWindow c 0x14 4 s = .ok s.clock.count ∧
      readWindow c 0x18 4 s = .ok s.clock.compare ∧
      readWindow c 0x20 4 s = .ok (s.clock.subtick.zeroExtend 32)) ∧
    (s.clock.clockInitialised = false →
      readWindow c 0x10 4 s = .error .notInitialised ∧ readWindow c 0x14 4 s = .error .notInitialised ∧
      readWindow c 0x18 4 s = .error .notInitialised ∧ readWindow c 0x20 4 s = .error .notInitialised) ∧
    (s.clock.triggerWritten = true → readWindow c 0x1C 4 s = .ok s.clock.trigger) ∧
    (s.clock.triggerWritten = false → readWindow c 0x1C 4 s = .error .triggerUnwritten) ∧
    readWindow c 0x24 4 s = .ok (s.arbiter.enableFlags.zeroExtend 32) ∧
    readWindow c 0x28 4 s =
      .ok (s.radio.requestedChannel.zeroExtend 32 ||| s.radio.appliedChannel.zeroExtend 32 <<< 8) ∧
    readWindow c 0x2C 4 s =
      .ok (s.radio.requestedTxPower.zeroExtend 32 ||| s.radio.appliedTxPower.zeroExtend 32 <<< 8) ∧
    readWindow c 0x34 4 s = .ok (BitVec.ofNat 32 (min s.clock.delayHold (2 ^ 32 - 1))) ∧
    ∃ w, readWindow c 0x30 4 s = .ok w ∧
      w.getLsbD 0 = s.inputs.rxActive ∧ w.getLsbD 1 = s.inputs.txActive ∧
      w.getLsbD 2 = s.inputs.txFrameAlreadyDequeued ∧ w.getLsbD 3 = s.inputs.gie ∧ w.extractLsb' 4 28 = 0

/-- R62: the fields of STATUS, bit by bit, for the reading agent; at power-on it reads 0; the compare-state encodings of R27 and the fault codes of R201 its fields hold. -/
def Obligations.StatusFields : Prop :=
  (∀ (s : State) (a : Agent),
    (statusWord a s).extractLsb' 0 3 = (if s.clock.clockInitialised then s.clock.compareState.bits else 0) ∧
    (statusWord a s).getLsbD 3 = s.arbiter.rxOn ∧
    (statusWord a s).getLsbD 4 = s.arbiter.dbgLed ∧
    (statusWord a s).getLsbD 5 = s.clock.cmpPending ∧
    (statusWord a s).getLsbD 6 = s.clock.cmpIe ∧
    (statusWord a s).getLsbD 7 = s.clock.clockInitialised ∧
    (statusWord a s).getLsbD 8 = s.clock.triggerWritten ∧
    ((statusWord a s).getLsbD 9 = true ↔ s.clock.isrPhase = .triggerCallbackDue) ∧
    ((statusWord a s).getLsbD 10 = true ↔ s.fault ≠ none) ∧
    ((statusWord a s).getLsbD 11 = true ↔ s.cont a ≠ []) ∧
    (statusWord a s).extractLsb' 12 4 = 0 ∧
    (∀ c, s.fault = some c → (statusWord a s).extractLsb' 16 8 = c.number) ∧
    (s.fault = none → (statusWord a s).extractLsb' 16 8 = 0) ∧
    (statusWord a s).extractLsb' 24 8 = 0) ∧
  (∀ a : Agent, statusWord a State.reset = 0) ∧
  (CompareState.rollover.bits = 0b001 ∧ CompareState.trigger.bits = 0b010 ∧
    CompareState.rolloverAndTrigger.bits = 0b011 ∧ CompareState.rolloverAndArmTrigger.bits = 0b101) ∧
  FaultCode.illegalOpcode.number = 0x01 ∧ FaultCode.reservedField.number = 0x02 ∧
  FaultCode.badAccess.number = 0x03 ∧ FaultCode.busy.number = 0x04 ∧ FaultCode.notInitialised.number = 0x05 ∧
  FaultCode.triggerUnwritten.number = 0x06 ∧ FaultCode.resetIe.number = 0x07 ∧
  FaultCode.rolloverNotAboveCount.number = 0x08 ∧ FaultCode.setCountState.number = 0x09 ∧
  FaultCode.setCountRange.number = 0x0A ∧ FaultCode.triggerRange.number = 0x0B ∧
  FaultCode.realignTxActive.number = 0x0C ∧ FaultCode.flagsZero.number = 0x0D ∧
  FaultCode.channelRange.number = 0x0E

/-- R65, R66: a read returns the register's value, or raises its fault, and changes nothing else; each byte of the window is its eight bits of the register. -/
def Obligations.ReadsHaveNoSideEffect : Prop :=
  ∀ (s : State) (c : Caller) (offset width : Nat),
    s.fault = none → mayAccess c (.read offset width) s = true →
    (∀ v, readWindow c offset width s = .ok v →
      step (s.schedule (.access c (.read offset width))) = .next { s with readData := v } ∧
      ∀ j, j < 4 → windowByte c (offset / 4 * 4 + j) s = .ok (v.extractLsb' (8 * j) 8)) ∧
    (∀ e, readWindow c offset width s = .error e →
      step (s.schedule (.access c (.read offset width))) = .next { s with fault := some e })

/-- R61, R66: a write to `CMD_LO` only latches its value, which its writer reads back; after a `CMD_HI` write that does not fault its writer reads that back, and `CMD_LO` as before; the other caller's latches read as before. -/
def Obligations.LatchesReadBack : Prop :=
  ∀ (s : State) (c : Caller) (v : Word), s.fault = none →
    (mayAccess c (.write 0x00 4 v) s = true →
      ∃ t, step (s.schedule (.access c (.write 0x00 4 v))) = .next t ∧ t = { s with latches := t.latches } ∧
        readWindow c 0x00 4 t = .ok v ∧ readWindow c 0x04 4 t = readWindow c 0x04 4 s ∧
        ∀ d, d ≠ c → readWindow d 0x00 4 t = readWindow d 0x00 4 s ∧ readWindow d 0x04 4 t = readWindow d 0x04 4 s) ∧
    (∀ t, step (s.schedule (.access c (.write 0x04 4 v))) = .next t → t.fault = none →
      readWindow c 0x04 4 t = .ok v ∧ readWindow c 0x00 4 t = readWindow c 0x00 4 s ∧
      ∀ d, d ≠ c → readWindow d 0x00 4 t = readWindow d 0x00 4 s ∧ readWindow d 0x04 4 t = readWindow d 0x04 4 s)

/-! ## BackoffClock (40_backoff_clock.md) -/

/-- R105: `INIT`. -/
def Obligations.InitResult : Prop :=
  ∀ s : State, Ready s →
    exec .init s = .next { s with clock := { s.clock with
      compareState := .rollover, count := 0, rollover := s.cfg.rolloverDefault, compare := s.cfg.rolloverDefault,
      subtick := 0, delayHold := 0, cmpPending := false, cmpIe := true, isrPhase := .idle, clockInitialised := true } }

/-- R106, R246: `RESET` is `INIT` when interrupts are disabled, and CV_RESET_IE when they are not. -/
def Obligations.ResetResult : Prop :=
  ∀ s : State, Ready s →
    (s.inputs.gie = false →
      exec .reset s = .next { s with clock := { s.clock with
        compareState := .rollover, count := 0, rollover := s.cfg.rolloverDefault,
        compare := s.cfg.rolloverDefault, subtick := 0, delayHold := 0, cmpPending := false, cmpIe := true,
        isrPhase := .idle, clockInitialised := true } }) ∧
    (s.inputs.gie = true → exec .reset s = .next { s with fault := some .resetIe })

/-- R107: `SETROLLOVER value`. -/
def Obligations.SetRolloverResult : Prop :=
  ∀ (s : State) (value : Word), Ready s →
    (s.clock.clockInitialised = false →
      exec (.setRollover value) s = .next { s with fault := some .notInitialised }) ∧
    (s.clock.clockInitialised = true →
      (s.clock.count.toNat < value.toNat →
        exec (.setRollover value) s = .next { s with clock := { s.clock with rollover := value, compare := value } }) ∧
      (value.toNat ≤ s.clock.count.toNat →
        exec (.setRollover value) s = .next { s with fault := some .rolloverNotAboveCount }))

/-- R108, R204: `SETCOUNT value`, the state checked before the range. -/
def Obligations.SetCountResult : Prop :=
  ∀ (s : State) (value : Word), Ready s →
    (s.clock.clockInitialised = false →
      exec (.setCount value) s = .next { s with fault := some .notInitialised }) ∧
    (s.clock.clockInitialised = true →
      (s.clock.compareState ≠ .rollover → exec (.setCount value) s = .next { s with fault := some .setCountState }) ∧
      (s.clock.compareState = .rollover → s.clock.rollover.toNat ≤ value.toNat →
        exec (.setCount value) s = .next { s with fault := some .setCountRange }) ∧
      (s.clock.compareState = .rollover → value.toNat < s.clock.rollover.toNat →
        exec (.setCount value) s = .next { s with clock := { s.clock with count := value } }))

/-- R109, R110: `GETCOUNT` and `GETTRIGGER`; a trigger never written is CV_TRIGGER_UNWRITTEN. -/
def Obligations.GetResults : Prop :=
  ∀ s : State, Ready s →
    (s.clock.clockInitialised = false →
      exec .getCount s = .next { s with fault := some .notInitialised } ∧
      exec .getTrigger s = .next { s with fault := some .notInitialised }) ∧
    (s.clock.clockInitialised = true →
      exec .getCount s = .next { s with result := s.clock.count } ∧
      (s.clock.triggerWritten = true → exec .getTrigger s = .next { s with result := s.clock.trigger }) ∧
      (s.clock.triggerWritten = false → exec .getTrigger s = .next { s with fault := some .triggerUnwritten }))

/-- R111: `SETTRIGGER t`, from every compare state. -/
def Obligations.SetTriggerResult : Prop :=
  ∀ (s : State) (t : Word), Ready s →
    (s.clock.clockInitialised = false →
      exec (.setTrigger t) s = .next { s with fault := some .notInitialised }) ∧
    (s.clock.clockInitialised = true →
      (s.clock.rollover.toNat ≤ t.toNat → exec (.setTrigger t) s = .next { s with fault := some .triggerRange }) ∧
      (t.toNat < s.clock.rollover.toNat → s.clock.count.toNat < t.toNat →
        exec (.setTrigger t) s = .next { s with clock := { s.clock with
          trigger := t, triggerWritten := true, compareState := .trigger, compare := t } }) ∧
      (t.toNat < s.clock.rollover.toNat → t = 0 →
        exec (.setTrigger t) s = .next { s with clock := { s.clock with
          trigger := t, triggerWritten := true, compareState := .rolloverAndTrigger, compare := s.clock.rollover } }) ∧
      (t.toNat < s.clock.rollover.toNat → 0 < t.toNat → t.toNat ≤ s.clock.count.toNat →
        exec (.setTrigger t) s = .next { s with clock := { s.clock with
          trigger := t, triggerWritten := true, compareState := .rolloverAndArmTrigger,
          compare := s.clock.rollover } }))

/-- R112: `CANCELTRIGGER`, from every compare state. -/
def Obligations.CancelTriggerResult : Prop :=
  ∀ s : State, Ready s →
    (s.clock.clockInitialised = false →
      exec .cancelTrigger s = .next { s with fault := some .notInitialised }) ∧
    (s.clock.clockInitialised = true →
      exec .cancelTrigger s = .next { s with clock := { s.clock with
        compareState := .rollover, compare := s.clock.rollover } })

/-- R114: the realignment arithmetic, in every case of its two tests. -/
def Obligations.RealignArithmetic : Prop :=
  ∀ (p : Params) (rc : Word) (rst : Half) (rollover count : Word), 0 < rollover.toNat →
    ∃ delta d n : Int, realignCompute p rc rst rollover count = ⟨delta, d.toNat, BitVec.ofInt 32 n⟩ ∧
      0 ≤ d ∧ d < 2 ^ 16 ∧ 0 ≤ n ∧ n < rollover.toNat ∧ (rollover.toNat : Int) ∣ (count.toNat - delta) - n ∧
      (p.ticksExpectedAtSfd.toNat ≤ rst.toNat → d = rst.toNat - p.ticksExpectedAtSfd.toNat ∧
        (rc.toNat ≤ rollover.toNat / 2 → delta = rc.toNat) ∧
        (rollover.toNat / 2 < rc.toNat → delta = rc.toNat - rollover.toNat)) ∧
      (rst.toNat < p.ticksExpectedAtSfd.toNat →
        d = rst.toNat - p.ticksExpectedAtSfd.toNat + p.ticksPerBackoff.toNat ∧
        (rc.toNat ≤ rollover.toNat / 2 → delta = rc.toNat - 1) ∧
        (rollover.toNat / 2 < rc.toNat → delta = rc.toNat - rollover.toNat - 1))

/-- R115, R116, R117: `REALIGN` leaves its two accesses to run; run with nothing between them, they hold the clock back and write the count and the result. -/
def Obligations.RealignResult : Prop :=
  ∀ (s : State) (rc : Word) (rst : Half), Ready s →
    (s.clock.clockInitialised = false →
      exec (.realign rc rst) s = .next { s with fault := some .notInitialised }) ∧
    (s.clock.clockInitialised = true →
      (s.inputs.txActive = true → exec (.realign rc rst) s = .next { s with fault := some .realignTxActive }) ∧
      (s.inputs.txActive = false → ∃ t, exec (.realign rc rst) s = .next t ∧
        t = s.setCont s.issuer
          [.realignDelay (realignCompute s.cfg rc rst s.clock.rollover s.clock.count).delay,
           .realignWrite (realignCompute s.cfg rc rst s.clock.rollover s.clock.count).delta
            (realignCompute s.cfg rc rst s.clock.rollover s.clock.count).newCount] ∧
        runRemaining maxMicros s.issuer t = { s with
          clock := { s.clock with
            count := (realignCompute s.cfg rc rst s.clock.rollover s.clock.count).newCount
            delayHold := s.clock.delayHold + (realignCompute s.cfg rc rst s.clock.rollover s.clock.count).delay }
          result := BitVec.ofInt 32 (realignCompute s.cfg rc rst s.clock.rollover s.clock.count).delta }))

/-- R100, R101, R102: one tick; before the clock is initialised there is none. -/
def Obligations.TimerTickResult : Prop :=
  ∀ s : State, s.fault = none →
    (s.clock.clockInitialised = false → step (s.schedule .tick) = .refused (.noStep .timer)) ∧
    (s.clock.clockInitialised = true → 0 < s.clock.delayHold →
      step (s.schedule .tick) = .next { s with clock := { s.clock with delayHold := s.clock.delayHold - 1 } }) ∧
    (s.clock.clockInitialised = true → s.clock.delayHold = 0 → s.clock.subtick + 1 ≠ s.cfg.ticksPerBackoff →
      step (s.schedule .tick) = .next { s with clock := { s.clock with subtick := s.clock.subtick + 1 } }) ∧
    (s.clock.clockInitialised = true → s.clock.delayHold = 0 → s.clock.subtick + 1 = s.cfg.ticksPerBackoff →
      s.clock.count + 1 ≠ s.clock.compare →
      step (s.schedule .tick) = .next { s with clock := { s.clock with
        subtick := 0, count := s.clock.count + 1 } }) ∧
    (s.clock.clockInitialised = true → s.clock.delayHold = 0 → s.clock.subtick + 1 = s.cfg.ticksPerBackoff →
      s.clock.count + 1 = s.clock.compare →
      step (s.schedule .tick) = .next { s with clock := { s.clock with
        subtick := 0, count := s.clock.count + 1, cmpPending := true } })

/-- R100, R101, R102: a forced delay absorbs its ticks, which move neither the sub-tick nor the count; after it, from a period boundary, `n` ticks count one backoff period per `P_TICKS_PER_BACKOFF` and pend a match exactly when one of the counts reached was the compare value. -/
def Obligations.TicksCountBackoffPeriods : Prop :=
  (∀ (s : State) (n : Nat), n ≤ s.clock.delayHold →
    ticks n s = { s with clock := { s.clock with delayHold := s.clock.delayHold - n } }) ∧
  (∀ (s : State) (n : Nat), s.clock.subtick = 0 →
    ticks (s.clock.delayHold + n) s = { s with clock := { s.clock with
      delayHold := 0
      count := s.clock.count + BitVec.ofNat 32 (n / s.cfg.ticksPerBackoff.toNat)
      subtick := BitVec.ofNat 16 (n % s.cfg.ticksPerBackoff.toNat)
      cmpPending := s.clock.cmpPending ||
        decide (∃ j, j < n / s.cfg.ticksPerBackoff.toNat ∧
          s.clock.count + BitVec.ofNat 32 (j + 1) = s.clock.compare) } })

/-- R120 to R123: phase A in each prior state. -/
def Obligations.SequencerOutcomes : Prop :=
  ∀ s : State,
    (s.clock.compareState = .rollover →
      takeCompareInterrupt s = { s with
        clock := { s.clock with cmpPending := false, count := 0 }, out := s.out ++ [.cbRollover] }) ∧
    (s.clock.compareState = .trigger →
      takeCompareInterrupt s = { s with clock := { s.clock with
        cmpPending := false, compareState := .rollover, compare := s.clock.rollover,
        isrPhase := .triggerCallbackDue } }) ∧
    (s.clock.compareState = .rolloverAndTrigger →
      takeCompareInterrupt s = { s with
        clock := { s.clock with
          cmpPending := false, count := 0, compareState := .rollover, compare := s.clock.rollover,
          isrPhase := .triggerCallbackDue }
        out := s.out ++ [.cbRollover] }) ∧
    (s.clock.compareState = .rolloverAndArmTrigger →
      takeCompareInterrupt s = { s with
        clock := { s.clock with
          cmpPending := false, count := 0, compareState := .trigger, compare := s.clock.trigger }
        out := s.out ++ [.cbRollover] })

/-- R122, R211: ISR_CMP takes phase B when the callback is owed; else phase A exactly when all the start conditions hold; else it has no step. -/
def Obligations.SequencerDispatch : Prop :=
  ∀ s : State, s.fault = none → s.conts.isrCmp = [] →
    (s.clock.isrPhase = .triggerCallbackDue →
      step (s.schedule .isr) = .next { s with
        clock := { s.clock with isrPhase := .idle }, out := s.out ++ [.cbTrigger] }) ∧
    (s.clock.isrPhase = .idle → s.clock.clockInitialised = true → s.clock.cmpPending = true →
      s.clock.cmpIe = true → s.inputs.gie = true →
      step (s.schedule .isr) = .next (takeCompareInterrupt s)) ∧
    (s.clock.isrPhase = .idle →
      s.clock.clockInitialised = false ∨ s.clock.cmpPending = false ∨ s.clock.cmpIe = false ∨ s.inputs.gie = false →
      step (s.schedule .isr) = .refused (.noStep .isrCmp))

/-- R126: a trigger armed behind the count fires in the next cycle, `(rollover - c) + t` backoff periods after arming when each match is served at once: first the rollover callback, then, at the trigger's count and no earlier, the trigger callback. -/
def Obligations.ArmedTriggerFiresNextCycle : Prop :=
  ∀ s : State,
    s.clock.compareState = .rolloverAndArmTrigger → s.clock.compare = s.clock.rollover →
    s.clock.count < s.clock.rollover → 0 < s.clock.trigger → s.clock.cmpPending = false →
    s.clock.subtick = 0 → s.clock.delayHold = 0 →
    ∃ s1 s2,
      s1 = ticks ((s.clock.rollover.toNat - s.clock.count.toNat) * s.cfg.ticksPerBackoff.toNat) s ∧
      s1.clock.cmpPending = true ∧
      (∀ n, n < (s.clock.rollover.toNat - s.clock.count.toNat) * s.cfg.ticksPerBackoff.toNat →
        (ticks n s).clock.cmpPending = false) ∧
      s2 = ticks (s.clock.trigger.toNat * s.cfg.ticksPerBackoff.toNat) (takeCompareInterrupt s1) ∧
      s2.clock.cmpPending = true ∧ s2.clock.count = s.clock.trigger ∧
      (∀ n, n < s.clock.trigger.toNat * s.cfg.ticksPerBackoff.toNat →
        (ticks n (takeCompareInterrupt s1)).clock.cmpPending = false) ∧
      (returnFromInterrupt (takeCompareInterrupt s2)).out = s.out ++ [.cbRollover, .cbTrigger] ∧
      (returnFromInterrupt (takeCompareInterrupt s2)).clock.compareState = .rollover ∧
      (returnFromInterrupt (takeCompareInterrupt s2)).clock.compare = s.clock.rollover

/-! ## RxTxArbiter (41_rxtx_arbiter.md) -/

/-- R140, R146, R150, R151: `ENABLE flags`, its first step and its whole run; `SOFTENABLE flags` sets the flags alone. -/
def Obligations.EnableResults : Prop :=
  ∀ (s : State) (flags : Byte), Ready s →
    (flags = 0 →
      exec (.enable flags) s = .next { s with fault := some .flagsZero } ∧
      exec (.softEnable flags) s = .next { s with fault := some .flagsZero }) ∧
    (flags ≠ 0 →
      ∃ t, exec (.enable flags) s = .next t ∧
        t = { s with
          arbiter := { s.arbiter with enableFlags := s.arbiter.enableFlags ||| flags }
          conts := s.conts.put s.issuer [.radioOn] } ∧
        runRemaining maxMicros s.issuer t =
          receiverOn { s with arbiter := { s.arbiter with enableFlags := s.arbiter.enableFlags ||| flags } } ∧
        exec (.softEnable flags) s = .next { s with
          arbiter := { s.arbiter with enableFlags := s.arbiter.enableFlags ||| flags } })

/-- R142, R146, R152: `DISABLE flags`, its first step and its whole run; OffRequest runs when the flags are 0 after the clear. -/
def Obligations.DisableResult : Prop :=
  ∀ (s : State) (flags : Byte), Ready s →
    (flags = 0 → exec (.disable flags) s = .next { s with fault := some .flagsZero }) ∧
    (flags ≠ 0 →
      ∃ t, exec (.disable flags) s = .next t ∧
        t = { s with
          arbiter := { s.arbiter with enableFlags := s.arbiter.enableFlags &&& ~~~flags }
          conts := s.conts.put s.issuer (if s.arbiter.enableFlags &&& ~~~flags = 0 then [.offRequest1] else []) } ∧
        runRemaining maxMicros s.issuer t =
          offRequested { s with arbiter := { s.arbiter with enableFlags := s.arbiter.enableFlags &&& ~~~flags } })

/-- R153: `HARDDISABLE`, its first step and its whole run, whatever the inputs. -/
def Obligations.HardDisableResult : Prop :=
  ∀ s : State, Ready s →
    ∃ t, exec .hardDisable s = .next t ∧
      t = { s with
        arbiter := { s.arbiter with enableFlags := 0 }
        conts := s.conts.put s.issuer [.radioOff, .haltCleanup, .serviceTx] } ∧
      runRemaining maxMicros s.issuer t =
        { receiverOff { s with arbiter := { s.arbiter with enableFlags := 0 } } with
          out := (receiverOff s).out ++ [.cbRxHaltCleanup, .cbServiceTx] }

/-- R154, R155: `ONREQUEST` and `OFFREQUEST`, each run to its end. -/
def Obligations.RequestResults : Prop :=
  ∀ s : State, Ready s →
    (∃ t, exec .onRequest s = .next t ∧
      t = { s with conts := s.conts.put s.issuer (if s.arbiter.enableFlags = 0 then [] else [.radioOn]) } ∧
      runRemaining maxMicros s.issuer t = onRequested s) ∧
    (∃ t, exec .offRequest s = .next t ∧
      t = { s with conts := s.conts.put s.issuer (if s.arbiter.enableFlags = 0 then [.offRequest2] else []) } ∧
      runRemaining maxMicros s.issuer t = offRequested s)

/-- R140, R141, R156, R157: `RADIOON` and `RADIOOFF`, guarded by the shadow flag. -/
def Obligations.RadioOnOffResults : Prop :=
  ∀ s : State, Ready s →
    (s.arbiter.rxOn = true → exec .radioOn s = .next s) ∧
    (s.arbiter.rxOn = false → exec .radioOn s = .next { s with
      arbiter := { s.arbiter with rxOn := true, dbgLed := true }, out := s.out ++ [.hwRxOn] }) ∧
    (s.arbiter.rxOn = false → exec .radioOff s = .next s) ∧
    (s.arbiter.rxOn = true → exec .radioOff s = .next { s with
      arbiter := { s.arbiter with rxOn := false, dbgLed := false }, out := s.out ++ [.hwRxOff] })

/-- R118, R142, R256: the two races the source leaves open are kept. Whatever ran between them, `REALIGN` step 3 writes the count computed in step 1 from the count before, and does not look at `compare`; and OffRequestStep2 switches the receiver off whatever flags were set since step 1. -/
def Obligations.RacesAreKept : Prop :=
  (∀ (s u : State) (rc : Word) (rst : Half), ClockReady s → s.inputs.txActive = false →
    ∃ t delta n, exec (.realign rc rst) s = .next t ∧
      n = (realignCompute s.cfg rc rst s.clock.rollover s.clock.count).newCount ∧
      (t.cont s.issuer).getLast? = some (.realignWrite delta n) ∧
      (u.cont s.issuer = [.realignWrite delta n] →
        ∃ v, microStep s.issuer u = some v ∧ v.clock = { u.clock with count := n })) ∧
  (∀ (u : State) (a : Agent), u.cont a = [.offRequest2] →
    u.inputs.rxActive = false → (u.inputs.txActive = false ∨ u.inputs.txFrameAlreadyDequeued = true) →
    u.arbiter.rxOn = true →
    ∃ v, microStep a u = some v ∧ v.arbiter = { u.arbiter with rxOn := false, dbgLed := false } ∧
      v.out = u.out ++ [.hwRxOff, .hwFlushRxFifo, .hwClearRxThresholdIrq] ∧ v.cont a = [])

/-! ## RadioParameterScheduler (42_radio_params.md) -/

/-- R175: `SETCHANNEL ch`, faulting outside 11 to 28, forwarding to UpdateChannel when no transmit is active. -/
def Obligations.SetChannelResult : Prop :=
  ∀ (s : State) (ch : Byte), Ready s →
    (ch.toNat < 11 ∨ 28 < ch.toNat → exec (.setChannel ch) s = .next { s with fault := some .channelRange }) ∧
    (11 ≤ ch.toNat → ch.toNat ≤ 28 →
      ∃ t, exec (.setChannel ch) s = .next t ∧
        t = { s with
          radio := { s.radio with requestedChannel := ch }
          conts := s.conts.put s.issuer [.setChannel2] } ∧
        (s.inputs.txActive = true →
          runRemaining maxMicros s.issuer t = { s with radio := { s.radio with requestedChannel := ch } }) ∧
        (s.inputs.txActive = false →
          runRemaining maxMicros s.issuer t =
            channelUpdated { s with radio := { s.radio with requestedChannel := ch } }))

/-- R176: `UPDATECHANNEL`, its first step and its whole run, the inputs not read; and, whatever ran between, in every state: step 1 run for `SETCHANNEL` latches the requested channel for step 3, and step 3 writes the channel latched. -/
def Obligations.UpdateChannelResult : Prop :=
  (∀ s : State, Ready s →
    (s.radio.requestedChannel = s.radio.appliedChannel → exec .updateChannel s = .next s) ∧
    (s.radio.requestedChannel ≠ s.radio.appliedChannel →
      ∃ t, exec .updateChannel s = .next t ∧
        t = { s with
          radio := { s.radio with appliedChannel := s.radio.requestedChannel }
          conts := s.conts.put s.issuer [.radioOff, .writeChannel s.radio.requestedChannel, .onRequest1] } ∧
        runRemaining maxMicros s.issuer t = channelUpdated s)) ∧
  (∀ (u : State) (a : Agent) (rest : List MicroStep), u.cont a = .updateChannel1 :: rest →
    (u.radio.requestedChannel = u.radio.appliedChannel →
      microStep a u = some { u with conts := u.conts.put a [] }) ∧
    (u.radio.requestedChannel ≠ u.radio.appliedChannel →
      microStep a u = some { u with
        radio := { u.radio with appliedChannel := u.radio.requestedChannel }
        conts := u.conts.put a [.radioOff, .writeChannel u.radio.requestedChannel, .onRequest1] })) ∧
  (∀ (u : State) (a : Agent) (ch : Byte) (rest : List MicroStep), u.cont a = .writeChannel ch :: rest →
    microStep a u = some { u with out := u.out ++ [.hwSetChannel ch], conts := u.conts.put a rest })

/-- R177: `SETTXPOWER atten`, clamped and looked up, forwarding to UpdateTxPower when the radio is idle. -/
def Obligations.SetTxPowerResult : Prop :=
  ∀ (s : State) (atten : Byte), Ready s →
    ∃ t v, exec (.setTxPower atten) s = .next t ∧
      s.cfg.txPowerTable[min atten.toNat s.cfg.maxAtten.toNat]? = some v ∧
      t = { s with
        radio := { s.radio with requestedTxPower := v }
        conts := s.conts.put s.issuer [.setTxPower2] } ∧
      (s.inputs.rxActive = true ∨ s.inputs.txActive = true →
        runRemaining maxMicros s.issuer t = { s with radio := { s.radio with requestedTxPower := v } }) ∧
      (s.inputs.rxActive = false → s.inputs.txActive = false →
        runRemaining maxMicros s.issuer t = powerUpdated { s with radio := { s.radio with requestedTxPower := v } })

/-- R178: `UPDATETXPOWER`; the inputs are not read. -/
def Obligations.UpdateTxPowerResult : Prop :=
  ∀ s : State, Ready s →
    (s.radio.requestedTxPower = s.radio.appliedTxPower → exec .updateTxPower s = .next s) ∧
    (s.radio.requestedTxPower ≠ s.radio.appliedTxPower →
      exec .updateTxPower s = .next { s with
        radio := { s.radio with appliedTxPower := s.radio.requestedTxPower }
        out := s.out ++ [.hwSetTxPower s.radio.requestedTxPower] })

/-! ## Reset, faults and agents (60_exceptions.md, 70_reset_and_hazards.md) -/

/-- R46: the power-on values the spec gives. -/
def Obligations.PowerOnValues : Prop :=
  ∀ (p : Params) (i : Inputs),
    (State.por p i).clock.triggerWritten = false ∧ (State.por p i).clock.delayHold = 0 ∧
    (State.por p i).clock.cmpPending = false ∧ (State.por p i).clock.cmpIe = false ∧
    (State.por p i).clock.isrPhase = .idle ∧ (State.por p i).clock.clockInitialised = false ∧
    (State.por p i).result = 0 ∧ (State.por p i).arbiter = ⟨0, false, false⟩ ∧
    (∀ a, (State.por p i).cont a = []) ∧
    (State.por p i).radio = ⟨p.channelInit, p.channelInit, p.txPowerInit, p.txPowerInit⟩ ∧
    (State.por p i).fault = none ∧ (State.por p i).out = [] ∧
    (∀ c, (State.por p i).cmdLo c = 0 ∧ (State.por p i).cmdHi c = 0)

/-- R7: a configuration that breaks a constraint is refused, and every other is accepted as it is. -/
def Obligations.IllFormedConfigurationRefused : Prop :=
  ∀ p : RawParams,
    ((Params.ofRaw p).isSome = true ↔
      0 < p.rolloverDefault.toNat ∧ 0 < p.ticksPerBackoff.toNat ∧ 0 < p.ticksPerSymbol.toNat ∧
      p.ticksExpectedAtSfd.toNat < p.ticksPerBackoff.toNat ∧ p.flagWidth = 8 ∧ p.chMin = 11 ∧ p.chMax = 28 ∧
      11 ≤ p.channelInit.toNat ∧ p.channelInit.toNat ≤ 28 ∧
      p.txPowerTable.length = p.maxAtten.toNat + 1 ∧ 64 ∣ p.windowBase) ∧
    ∀ q, Params.ofRaw p = some q → q.toRawParams = p

/-- R200, R214: a step that raises a fault changes nothing but `fault`, and of the model's own fields takes the step off the schedule and names the caller (log 1, 9); a faulting `CMD_HI` write is not latched (log 12). -/
def Obligations.FaultsArePrecise : Prop :=
  ∀ (s t : State) (c : FaultCode), s.fault = none → step s = .next t → t.fault = some c →
    t = { consume s with caller := t.caller, fault := some c }

/-- R43, R62, R200: a faulted block has no step but the inspection of STATUS, and stays faulted (log 4). -/
def Obligations.FaultedBlockIsHalted : Prop :=
  ∀ (s : State) (c : FaultCode), s.fault = some c →
    (∀ a, nextStimulus s = .access a (.read 0x0C 4) →
      step s = .next { consume s with readData := statusWord a.agent (consume s) }) ∧
    ((∀ a, nextStimulus s ≠ .access a (.read 0x0C 4)) → step s = .fault (.halted c))

/-- R212: while a handler is in progress FG has no step, its reads and `CMD_LO` writes included (log 14); ENV_RADIO issues a command only when interrupts are enabled or it is continuing; the activity inputs change at any time, and so does `gie`, which is the model's choice (log 23). -/
def Obligations.PreemptionRules : Prop :=
  ∀ s : State, s.fault = none →
    (s.clock.isrPhase ≠ .idle ∨ s.cont .envRadio ≠ [] ∨ s.cont .isrCmp ≠ [] →
      step (s.schedule (.micro .fg)) = .refused (.noStep .fg) ∧
      ∀ a, step (s.schedule (.access .fg a)) = .refused (.noStep .fg)) ∧
    (s.inputs.gie = false → s.cont .envRadio = [] →
      ∀ hi, step (s.schedule (.access .envRadio (.write 0x04 4 hi))) = .refused (.noStep .envRadio)) ∧
    (∀ m rest, s.cont .envRadio = m :: rest →
      step (s.schedule (.micro .envRadio)) = .next (runMicro m .envRadio rest s)) ∧
    (∀ m rest, s.clock.isrPhase = .idle → s.cont .envRadio = [] → s.cont .isrCmp = [] → s.cont .fg = m :: rest →
      step (s.schedule (.micro .fg)) = .next (runMicro m .fg rest s)) ∧
    (∀ v, step (s.schedule (.drive .rxActive v)) = .next { s with inputs := { s.inputs with rxActive := v } }) ∧
    (∀ v, step (s.schedule (.drive .txActive v)) = .next { s with inputs := { s.inputs with txActive := v } }) ∧
    (∀ v, step (s.schedule (.drive .txFrameAlreadyDequeued v)) =
      .next { s with inputs := { s.inputs with txFrameAlreadyDequeued := v } }) ∧
    (∀ v, step (s.schedule (.drive .gie v)) = .next { s with inputs := { s.inputs with gie := v } })

/-! ## Invariants of every step -/

/-- R37, R145: the indicator follows the receiver flag and the toggles alternate, in every state a step reaches. -/
def Obligations.StepKeepsReceiverInv : Prop := ∀ s t : State, ReceiverInv s → step s = .next t → ReceiverInv t

/-- R22, R27, R28: the clock's register invariants. -/
def Obligations.StepKeepsClockInv : Prop := ∀ s t : State, ClockInv s → step s = .next t → ClockInv t

/-- R29 to R34: nothing of the clock moves before the first `INIT` or `RESET`. -/
def Obligations.StepKeepsQuietInv : Prop := ∀ s t : State, QuietInv s → step s = .next t → QuietInv t

/-- R39, R220: what is left to run is the rest of one command per agent. -/
def Obligations.StepKeepsContInv : Prop := ∀ s t : State, ContInv s → step s = .next t → ContInv t

/-- R175, C8: only channels 11 to 28 reach the radio. -/
def Obligations.StepKeepsChannelInv : Prop := ∀ s t : State, ChannelInv s → step s = .next t → ChannelInv t

/-- R177, R178: only power values of the platform's table, or the power-on one, reach the radio. -/
def Obligations.StepKeepsPowerInv : Prop := ∀ s t : State, PowerInv s → step s = .next t → PowerInv t

/-- All six invariants hold at reset. The clauses of `ClockInv` hold there because the clock is not initialised, so none rests on a value the model chose (log 5, 6). -/
def Obligations.InvariantsHoldAtReset : Prop :=
  ReceiverInv State.reset ∧ ClockInv State.reset ∧ QuietInv State.reset ∧ ContInv State.reset ∧
  ChannelInv State.reset ∧ PowerInv State.reset

/-! ## Rules of the whole machine -/

/-- R7, R38, R42, R45: no step writes the parameters; a change of an input writes that input and no other, and nothing else writes one; events are only appended. -/
def Obligations.InputsOnlyDrivenTraceOnlyGrows : Prop :=
  ∀ s t : State, step s = .next t →
    t.cfg = s.cfg ∧ s.out <+: t.out ∧ (t.inputs ≠ s.inputs → ∃ i v, nextStimulus s = .drive i v) ∧
    (∀ v, nextStimulus s = .drive .rxActive v → t.inputs = { s.inputs with rxActive := v }) ∧
    (∀ v, nextStimulus s = .drive .txActive v → t.inputs = { s.inputs with txActive := v }) ∧
    (∀ v, nextStimulus s = .drive .txFrameAlreadyDequeued v →
      t.inputs = { s.inputs with txFrameAlreadyDequeued := v }) ∧
    (∀ v, nextStimulus s = .drive .gie v → t.inputs = { s.inputs with gie := v })

/-- R101: a compare match happens only in a tick that increments the count to the compare value. -/
def Obligations.MatchOnlyOnIncrement : Prop :=
  ∀ s t : State, step s = .next t → s.clock.cmpPending = false → t.clock.cmpPending = true →
    nextStimulus s = .tick ∧ s.clock.delayHold = 0 ∧ s.clock.subtick + 1 = s.cfg.ticksPerBackoff ∧
    t.clock.count = s.clock.count + 1 ∧ t.clock.count = s.clock.compare ∧ t.clock.compare = s.clock.compare

/-- R125: only `INIT`, `RESET`, `SETTRIGGER`, `CANCELTRIGGER` and phase A of the sequencer write `compare_state`. -/
def Obligations.CompareStateWriters : Prop :=
  ∀ s t : State, step s = .next t → t.clock.compareState ≠ s.clock.compareState →
    issuedNext s = some .init ∨ issuedNext s = some .reset ∨ (∃ v, issuedNext s = some (.setTrigger v)) ∨
    issuedNext s = some .cancelTrigger ∨
    (nextStimulus s = .isr ∧ s.clock.cmpPending = true ∧ s.inputs.gie = true)

/-- R22, R23, R25, R26, R34: who writes `rollover`, `count`, `trigger`, `trigger_written` and `clock_initialised`; the last two are never withdrawn. -/
def Obligations.ClockRegisterWriters : Prop :=
  ∀ s t : State, step s = .next t →
    (t.clock.rollover ≠ s.clock.rollover →
      issuedNext s = some .init ∨ issuedNext s = some .reset ∨ issuedNext s = some (.setRollover t.clock.rollover)) ∧
    (t.clock.count ≠ s.clock.count →
      nextStimulus s = .tick ∨ issuedNext s = some .init ∨ issuedNext s = some .reset ∨
      issuedNext s = some (.setCount t.clock.count) ∨
      (∃ delta, microNext s = some (.realignWrite delta t.clock.count)) ∨
      (nextStimulus s = .isr ∧ t.clock.count = 0)) ∧
    (t.clock.trigger ≠ s.clock.trigger ∨ t.clock.triggerWritten ≠ s.clock.triggerWritten →
      issuedNext s = some (.setTrigger t.clock.trigger) ∧ t.clock.triggerWritten = true) ∧
    (t.clock.clockInitialised ≠ s.clock.clockInitialised →
      (issuedNext s = some .init ∨ issuedNext s = some .reset) ∧ t.clock.clockInitialised = true)

/-- R33, R35: who writes `result` and `enable_flags`. -/
def Obligations.ResultAndFlagWriters : Prop :=
  ∀ s t : State, step s = .next t →
    (t.result ≠ s.result →
      issuedNext s = some .getCount ∨ issuedNext s = some .getTrigger ∨
      ∃ delta n, microNext s = some (.realignWrite delta n) ∧ t.result = BitVec.ofInt 32 delta) ∧
    (t.arbiter.enableFlags ≠ s.arbiter.enableFlags →
      (∃ f, issuedNext s = some (.enable f)) ∨ (∃ f, issuedNext s = some (.softEnable f)) ∨
      (∃ f, issuedNext s = some (.disable f)) ∨ issuedNext s = some .hardDisable)

/-- R40, R41, R170: the requested copies are written only by the Set commands, the applied copies only inside Update, and then with the requested value. -/
def Obligations.AppliedOnlyInsideUpdate : Prop :=
  ∀ s t : State, step s = .next t →
    (t.radio.requestedChannel ≠ s.radio.requestedChannel →
      issuedNext s = some (.setChannel t.radio.requestedChannel)) ∧
    (t.radio.appliedChannel ≠ s.radio.appliedChannel →
      t.radio.appliedChannel = s.radio.requestedChannel ∧
      (issuedNext s = some .updateChannel ∨ microNext s = some .updateChannel1)) ∧
    (t.radio.requestedTxPower ≠ s.radio.requestedTxPower → ∃ atten, issuedNext s = some (.setTxPower atten)) ∧
    (t.radio.appliedTxPower ≠ s.radio.appliedTxPower →
      t.radio.appliedTxPower = s.radio.requestedTxPower ∧
      t.out = s.out ++ [.hwSetTxPower s.radio.requestedTxPower] ∧
      (issuedNext s = some .updateTxPower ∨ microNext s = some .updateTxPower))

/-- R36, R144: the receiver goes off only by an OffRequest the activity inputs allow, by `RADIOOFF`, or by the forced off of `HARDDISABLE` and `UPDATECHANNEL`; it goes on only by `RADIOON` or the RadioOn micro-step, which only `ENABLE` and `ONREQUEST` (as a command, or as step 4 of `UPDATECHANNEL`) leave to run. -/
def Obligations.ReceiverGoesOffOnlyWhenAllowed : Prop :=
  ∀ s t : State, step s = .next t →
    (s.arbiter.rxOn = true → t.arbiter.rxOn = false →
      issuedNext s = some .radioOff ∨ microNext s = some .radioOff ∨
      (microNext s = some .offRequest2 ∧ s.inputs.rxActive = false ∧
        (s.inputs.txActive = false ∨ s.inputs.txFrameAlreadyDequeued = true))) ∧
    (s.arbiter.rxOn = false → t.arbiter.rxOn = true →
      issuedNext s = some .radioOn ∨ microNext s = some .radioOn) ∧
    (∀ a, .radioOff ∈ t.cont a → .radioOff ∈ s.cont a ∨
      issuedNext s = some .hardDisable ∨ issuedNext s = some .updateChannel ∨ microNext s = some .updateChannel1) ∧
    (∀ a, .radioOn ∈ t.cont a → .radioOn ∈ s.cont a ∨
      (∃ f, issuedNext s = some (.enable f)) ∨ issuedNext s = some .onRequest ∨ microNext s = some .onRequest1)

/-- R39, R63, R242: a step of one agent leaves the other agents' remaining micro-steps and command latches as they are; that a change of `gie` counts as ENV_RADIO's step is the model's choice (log 23). -/
def Obligations.AgentsKeepTheirOwn : Prop :=
  ∀ s t : State, step s = .next t →
    (∀ a, a ≠ stimulusAgent (nextStimulus s) → t.cont a = s.cont a) ∧
    (∀ c, c.agent ≠ stimulusAgent (nextStimulus s) → t.cmdLo c = s.cmdLo c ∧ t.cmdHi c = s.cmdHi c)

/-- R26, R34, R240: nothing the machine does depends on a register that has no value yet, so no run can tell which values the model's reset gives them (log 5, 6). -/
def Obligations.PowerOnValuesInvisible : Prop :=
  ∀ s s' : State, ClockInv s → ClockInv s' → visible s = visible s' →
    onNext visible (step s) = onNext visible (step s')

/-- R72, R126: one service of a match that is both emits the rollover callback, leaves the critical section, and then emits the trigger callback. -/
def Obligations.RolloverCallbackFirst : Prop :=
  ∀ s t : State, s.fault = none → s.conts.isrCmp = [] → s.clock.isrPhase = .idle →
    s.clock.compareState = .rolloverAndTrigger → step (s.schedule .isr) = .next t →
    t.out = s.out ++ [.cbRollover] ∧
    ∃ u, step (t.schedule .isr) = .next u ∧ u.out = s.out ++ [.cbRollover, .cbTrigger] ∧ u.clock.isrPhase = .idle

/-- R84, R88: a command is well formed, and is a word, exactly when its format's number of immediates is there and each is below the bound of its field; what it then is states it back; a line with a mnemonic and numbers that do not fit is an assembly error; the mnemonics, in the table's order, each naming its row. -/
def Obligations.StatedCommandsAreRead : Prop :=
  (∀ i : Instr, i.toRaw.toInstr = some i) ∧
  (∀ c : RawCommand, c.wellFormed = false ↔ c.toInstr = none) ∧
  (∀ c : RawCommand, c.toInstr.isSome = true ↔
    (c.opcode.format = .f0 ∧ c.immediates = []) ∨
    (c.opcode.format = .fb ∧ ∃ v, v < 2 ^ 8 ∧ c.immediates = [v]) ∨
    (c.opcode.format = .fw ∧ ∃ v, v < 2 ^ 32 ∧ c.immediates = [v]) ∨
    (c.opcode.format = .fwh ∧ ∃ v h, v < 2 ^ 32 ∧ h < 2 ^ 16 ∧ c.immediates = [v, h])) ∧
  (∀ (c : RawCommand) (i : Instr), c.toInstr = some i → i.toRaw = c) ∧
  (∀ (line : List Char) (o : Opcode) (vs : List Nat), codePart line ≠ [] →
    opcodeNamed ((codePart line).takeWhile (· != ' ')) = some o →
    immediatesOf ((codePart line).dropWhile (· != ' ')) = some vs →
    (RawCommand.toInstr ⟨o, vs⟩ = none → assembleChars line = .error .doesNotFit) ∧
    (∀ i, RawCommand.toInstr ⟨o, vs⟩ = some i → assembleChars line = .ok (some i))) ∧
  (∀ o : Opcode, opcodeNamed (mnemonic o).toList = some o) ∧
  Opcode.all.map mnemonic =
    ["INIT", "RESET", "SETROLLOVER", "SETCOUNT", "GETCOUNT", "GETTRIGGER", "SETTRIGGER", "CANCELTRIGGER", "REALIGN",
     "ENABLE", "SOFTENABLE", "DISABLE", "HARDDISABLE", "ONREQUEST", "OFFREQUEST", "RADIOON", "RADIOOFF",
     "SETCHANNEL", "UPDATECHANNEL", "SETTXPOWER", "UPDATETXPOWER"]
end

