-- ==== Sys2Proof/Laws/State.lean ====
section
/-! SUPPORT. What each named update of the state leaves: one lemma per field and update, so that no proof unfolds one. -/

namespace Sys2Proof.Machine

/-! ### raise -/

@[simp] theorem State.raise_cfg (s : State) (c : FaultCode) : (s.raise c).cfg = s.cfg := rfl

@[simp] theorem State.raise_clock (s : State) (c : FaultCode) : (s.raise c).clock = s.clock := rfl

@[simp] theorem State.raise_result (s : State) (c : FaultCode) : (s.raise c).result = s.result := rfl

@[simp] theorem State.raise_arbiter (s : State) (c : FaultCode) : (s.raise c).arbiter = s.arbiter := rfl

@[simp] theorem State.raise_inputs (s : State) (c : FaultCode) : (s.raise c).inputs = s.inputs := rfl

@[simp] theorem State.raise_conts (s : State) (c : FaultCode) : (s.raise c).conts = s.conts := rfl

@[simp] theorem State.raise_radio (s : State) (c : FaultCode) : (s.raise c).radio = s.radio := rfl

@[simp] theorem State.raise_fault (s : State) (c : FaultCode) : (s.raise c).fault = some c := rfl

@[simp] theorem State.raise_out (s : State) (c : FaultCode) : (s.raise c).out = s.out := rfl

@[simp] theorem State.raise_latches (s : State) (c : FaultCode) : (s.raise c).latches = s.latches := rfl

@[simp] theorem State.raise_caller (s : State) (c : FaultCode) : (s.raise c).caller = s.caller := rfl

@[simp] theorem State.raise_readData (s : State) (c : FaultCode) : (s.raise c).readData = s.readData := rfl

@[simp] theorem State.raise_script (s : State) (c : FaultCode) : (s.raise c).script = s.script := rfl

@[simp] theorem State.raise_freeCount (s : State) (c : FaultCode) : (s.raise c).freeCount = s.freeCount := rfl

/-! ### emit -/

@[simp] theorem State.emit_cfg (s : State) (e : Event) : (s.emit e).cfg = s.cfg := rfl

@[simp] theorem State.emit_clock (s : State) (e : Event) : (s.emit e).clock = s.clock := rfl

@[simp] theorem State.emit_result (s : State) (e : Event) : (s.emit e).result = s.result := rfl

@[simp] theorem State.emit_arbiter (s : State) (e : Event) : (s.emit e).arbiter = s.arbiter := rfl

@[simp] theorem State.emit_inputs (s : State) (e : Event) : (s.emit e).inputs = s.inputs := rfl

@[simp] theorem State.emit_conts (s : State) (e : Event) : (s.emit e).conts = s.conts := rfl

@[simp] theorem State.emit_radio (s : State) (e : Event) : (s.emit e).radio = s.radio := rfl

@[simp] theorem State.emit_fault (s : State) (e : Event) : (s.emit e).fault = s.fault := rfl

@[simp] theorem State.emit_out (s : State) (e : Event) : (s.emit e).out = s.out ++ [e] := rfl

@[simp] theorem State.emit_latches (s : State) (e : Event) : (s.emit e).latches = s.latches := rfl

@[simp] theorem State.emit_caller (s : State) (e : Event) : (s.emit e).caller = s.caller := rfl

@[simp] theorem State.emit_readData (s : State) (e : Event) : (s.emit e).readData = s.readData := rfl

@[simp] theorem State.emit_script (s : State) (e : Event) : (s.emit e).script = s.script := rfl

@[simp] theorem State.emit_freeCount (s : State) (e : Event) : (s.emit e).freeCount = s.freeCount := rfl

/-! ### setCont -/

@[simp] theorem State.setCont_cfg (s : State) (a : Agent) (l : List MicroStep) : (s.setCont a l).cfg = s.cfg := rfl

@[simp] theorem State.setCont_clock (s : State) (a : Agent) (l : List MicroStep) : (s.setCont a l).clock = s.clock := rfl

@[simp] theorem State.setCont_result (s : State) (a : Agent) (l : List MicroStep) : (s.setCont a l).result = s.result := rfl

@[simp] theorem State.setCont_arbiter (s : State) (a : Agent) (l : List MicroStep) : (s.setCont a l).arbiter = s.arbiter := rfl

@[simp] theorem State.setCont_inputs (s : State) (a : Agent) (l : List MicroStep) : (s.setCont a l).inputs = s.inputs := rfl

@[simp] theorem State.setCont_conts (s : State) (a : Agent) (l : List MicroStep) : (s.setCont a l).conts = s.conts.put a l := rfl

@[simp] theorem State.setCont_radio (s : State) (a : Agent) (l : List MicroStep) : (s.setCont a l).radio = s.radio := rfl

@[simp] theorem State.setCont_fault (s : State) (a : Agent) (l : List MicroStep) : (s.setCont a l).fault = s.fault := rfl

@[simp] theorem State.setCont_out (s : State) (a : Agent) (l : List MicroStep) : (s.setCont a l).out = s.out := rfl

@[simp] theorem State.setCont_latches (s : State) (a : Agent) (l : List MicroStep) : (s.setCont a l).latches = s.latches := rfl

@[simp] theorem State.setCont_caller (s : State) (a : Agent) (l : List MicroStep) : (s.setCont a l).caller = s.caller := rfl

@[simp] theorem State.setCont_readData (s : State) (a : Agent) (l : List MicroStep) : (s.setCont a l).readData = s.readData := rfl

@[simp] theorem State.setCont_script (s : State) (a : Agent) (l : List MicroStep) : (s.setCont a l).script = s.script := rfl

@[simp] theorem State.setCont_freeCount (s : State) (a : Agent) (l : List MicroStep) : (s.setCont a l).freeCount = s.freeCount := rfl

/-! ### asCaller -/

@[simp] theorem State.asCaller_cfg (s : State) (c : Caller) : (s.asCaller c).cfg = s.cfg := rfl

@[simp] theorem State.asCaller_clock (s : State) (c : Caller) : (s.asCaller c).clock = s.clock := rfl

@[simp] theorem State.asCaller_result (s : State) (c : Caller) : (s.asCaller c).result = s.result := rfl

@[simp] theorem State.asCaller_arbiter (s : State) (c : Caller) : (s.asCaller c).arbiter = s.arbiter := rfl

@[simp] theorem State.asCaller_inputs (s : State) (c : Caller) : (s.asCaller c).inputs = s.inputs := rfl

@[simp] theorem State.asCaller_conts (s : State) (c : Caller) : (s.asCaller c).conts = s.conts := rfl

@[simp] theorem State.asCaller_radio (s : State) (c : Caller) : (s.asCaller c).radio = s.radio := rfl

@[simp] theorem State.asCaller_fault (s : State) (c : Caller) : (s.asCaller c).fault = s.fault := rfl

@[simp] theorem State.asCaller_out (s : State) (c : Caller) : (s.asCaller c).out = s.out := rfl

@[simp] theorem State.asCaller_latches (s : State) (c : Caller) : (s.asCaller c).latches = s.latches := rfl

@[simp] theorem State.asCaller_caller (s : State) (c : Caller) : (s.asCaller c).caller = c := rfl

@[simp] theorem State.asCaller_readData (s : State) (c : Caller) : (s.asCaller c).readData = s.readData := rfl

@[simp] theorem State.asCaller_script (s : State) (c : Caller) : (s.asCaller c).script = s.script := rfl

@[simp] theorem State.asCaller_freeCount (s : State) (c : Caller) : (s.asCaller c).freeCount = s.freeCount := rfl

/-! ### deliver -/

@[simp] theorem State.deliver_cfg (s : State) (v : Word) : (s.deliver v).cfg = s.cfg := rfl

@[simp] theorem State.deliver_clock (s : State) (v : Word) : (s.deliver v).clock = s.clock := rfl

@[simp] theorem State.deliver_result (s : State) (v : Word) : (s.deliver v).result = s.result := rfl

@[simp] theorem State.deliver_arbiter (s : State) (v : Word) : (s.deliver v).arbiter = s.arbiter := rfl

@[simp] theorem State.deliver_inputs (s : State) (v : Word) : (s.deliver v).inputs = s.inputs := rfl

@[simp] theorem State.deliver_conts (s : State) (v : Word) : (s.deliver v).conts = s.conts := rfl

@[simp] theorem State.deliver_radio (s : State) (v : Word) : (s.deliver v).radio = s.radio := rfl

@[simp] theorem State.deliver_fault (s : State) (v : Word) : (s.deliver v).fault = s.fault := rfl

@[simp] theorem State.deliver_out (s : State) (v : Word) : (s.deliver v).out = s.out := rfl

@[simp] theorem State.deliver_latches (s : State) (v : Word) : (s.deliver v).latches = s.latches := rfl

@[simp] theorem State.deliver_caller (s : State) (v : Word) : (s.deliver v).caller = s.caller := rfl

@[simp] theorem State.deliver_readData (s : State) (v : Word) : (s.deliver v).readData = v := rfl

@[simp] theorem State.deliver_script (s : State) (v : Word) : (s.deliver v).script = s.script := rfl

@[simp] theorem State.deliver_freeCount (s : State) (v : Word) : (s.deliver v).freeCount = s.freeCount := rfl

/-! ### latchLo -/

@[simp] theorem State.latchLo_cfg (s : State) (c : Caller) (v : Word) : (s.latchLo c v).cfg = s.cfg := by cases c <;> rfl

@[simp] theorem State.latchLo_clock (s : State) (c : Caller) (v : Word) : (s.latchLo c v).clock = s.clock := by cases c <;> rfl

@[simp] theorem State.latchLo_result (s : State) (c : Caller) (v : Word) : (s.latchLo c v).result = s.result := by cases c <;> rfl

@[simp] theorem State.latchLo_arbiter (s : State) (c : Caller) (v : Word) : (s.latchLo c v).arbiter = s.arbiter := by cases c <;> rfl

@[simp] theorem State.latchLo_inputs (s : State) (c : Caller) (v : Word) : (s.latchLo c v).inputs = s.inputs := by cases c <;> rfl

@[simp] theorem State.latchLo_conts (s : State) (c : Caller) (v : Word) : (s.latchLo c v).conts = s.conts := by cases c <;> rfl

@[simp] theorem State.latchLo_radio (s : State) (c : Caller) (v : Word) : (s.latchLo c v).radio = s.radio := by cases c <;> rfl

@[simp] theorem State.latchLo_fault (s : State) (c : Caller) (v : Word) : (s.latchLo c v).fault = s.fault := by cases c <;> rfl

@[simp] theorem State.latchLo_out (s : State) (c : Caller) (v : Word) : (s.latchLo c v).out = s.out := by cases c <;> rfl

@[simp] theorem State.latchLo_caller (s : State) (c : Caller) (v : Word) : (s.latchLo c v).caller = s.caller := by cases c <;> rfl

@[simp] theorem State.latchLo_readData (s : State) (c : Caller) (v : Word) : (s.latchLo c v).readData = s.readData := by cases c <;> rfl

@[simp] theorem State.latchLo_script (s : State) (c : Caller) (v : Word) : (s.latchLo c v).script = s.script := by cases c <;> rfl

@[simp] theorem State.latchLo_freeCount (s : State) (c : Caller) (v : Word) : (s.latchLo c v).freeCount = s.freeCount := by cases c <;> rfl

/-! ### latchHi -/

@[simp] theorem State.latchHi_cfg (s : State) (c : Caller) (v : Word) : (s.latchHi c v).cfg = s.cfg := by
  unfold State.latchHi; split <;> [rfl; cases c <;> rfl]

@[simp] theorem State.latchHi_clock (s : State) (c : Caller) (v : Word) : (s.latchHi c v).clock = s.clock := by
  unfold State.latchHi; split <;> [rfl; cases c <;> rfl]

@[simp] theorem State.latchHi_result (s : State) (c : Caller) (v : Word) : (s.latchHi c v).result = s.result := by
  unfold State.latchHi; split <;> [rfl; cases c <;> rfl]

@[simp] theorem State.latchHi_arbiter (s : State) (c : Caller) (v : Word) : (s.latchHi c v).arbiter = s.arbiter := by
  unfold State.latchHi; split <;> [rfl; cases c <;> rfl]

@[simp] theorem State.latchHi_inputs (s : State) (c : Caller) (v : Word) : (s.latchHi c v).inputs = s.inputs := by
  unfold State.latchHi; split <;> [rfl; cases c <;> rfl]

@[simp] theorem State.latchHi_conts (s : State) (c : Caller) (v : Word) : (s.latchHi c v).conts = s.conts := by
  unfold State.latchHi; split <;> [rfl; cases c <;> rfl]

@[simp] theorem State.latchHi_radio (s : State) (c : Caller) (v : Word) : (s.latchHi c v).radio = s.radio := by
  unfold State.latchHi; split <;> [rfl; cases c <;> rfl]

@[simp] theorem State.latchHi_fault (s : State) (c : Caller) (v : Word) : (s.latchHi c v).fault = s.fault := by
  unfold State.latchHi; split <;> [rfl; cases c <;> rfl]

@[simp] theorem State.latchHi_out (s : State) (c : Caller) (v : Word) : (s.latchHi c v).out = s.out := by
  unfold State.latchHi; split <;> [rfl; cases c <;> rfl]

@[simp] theorem State.latchHi_caller (s : State) (c : Caller) (v : Word) : (s.latchHi c v).caller = s.caller := by
  unfold State.latchHi; split <;> [rfl; cases c <;> rfl]

@[simp] theorem State.latchHi_readData (s : State) (c : Caller) (v : Word) : (s.latchHi c v).readData = s.readData := by
  unfold State.latchHi; split <;> [rfl; cases c <;> rfl]

@[simp] theorem State.latchHi_script (s : State) (c : Caller) (v : Word) : (s.latchHi c v).script = s.script := by
  unfold State.latchHi; split <;> [rfl; cases c <;> rfl]

@[simp] theorem State.latchHi_freeCount (s : State) (c : Caller) (v : Word) : (s.latchHi c v).freeCount = s.freeCount := by
  unfold State.latchHi; split <;> [rfl; cases c <;> rfl]

/-! ### drive -/

@[simp] theorem State.drive_cfg (s : State) (i : InputLine) (v : Bool) : (s.drive i v).cfg = s.cfg := by cases i <;> rfl

@[simp] theorem State.drive_clock (s : State) (i : InputLine) (v : Bool) : (s.drive i v).clock = s.clock := by cases i <;> rfl

@[simp] theorem State.drive_result (s : State) (i : InputLine) (v : Bool) : (s.drive i v).result = s.result := by cases i <;> rfl

@[simp] theorem State.drive_arbiter (s : State) (i : InputLine) (v : Bool) : (s.drive i v).arbiter = s.arbiter := by cases i <;> rfl

@[simp] theorem State.drive_conts (s : State) (i : InputLine) (v : Bool) : (s.drive i v).conts = s.conts := by cases i <;> rfl

@[simp] theorem State.drive_radio (s : State) (i : InputLine) (v : Bool) : (s.drive i v).radio = s.radio := by cases i <;> rfl

@[simp] theorem State.drive_fault (s : State) (i : InputLine) (v : Bool) : (s.drive i v).fault = s.fault := by cases i <;> rfl

@[simp] theorem State.drive_out (s : State) (i : InputLine) (v : Bool) : (s.drive i v).out = s.out := by cases i <;> rfl

@[simp] theorem State.drive_latches (s : State) (i : InputLine) (v : Bool) : (s.drive i v).latches = s.latches := by cases i <;> rfl

@[simp] theorem State.drive_caller (s : State) (i : InputLine) (v : Bool) : (s.drive i v).caller = s.caller := by cases i <;> rfl

@[simp] theorem State.drive_readData (s : State) (i : InputLine) (v : Bool) : (s.drive i v).readData = s.readData := by cases i <;> rfl

@[simp] theorem State.drive_script (s : State) (i : InputLine) (v : Bool) : (s.drive i v).script = s.script := by cases i <;> rfl

@[simp] theorem State.drive_freeCount (s : State) (i : InputLine) (v : Bool) : (s.drive i v).freeCount = s.freeCount := by cases i <;> rfl

/-! ### consume -/

@[simp] theorem consume_cfg (s : State) : (consume s).cfg = s.cfg := by
  unfold consume; split <;> simp [*]

@[simp] theorem consume_clock (s : State) : (consume s).clock = s.clock := by
  unfold consume; split <;> simp [*]

@[simp] theorem consume_result (s : State) : (consume s).result = s.result := by
  unfold consume; split <;> simp [*]

@[simp] theorem consume_arbiter (s : State) : (consume s).arbiter = s.arbiter := by
  unfold consume; split <;> simp [*]

@[simp] theorem consume_inputs (s : State) : (consume s).inputs = s.inputs := by
  unfold consume; split <;> simp [*]

@[simp] theorem consume_conts (s : State) : (consume s).conts = s.conts := by
  unfold consume; split <;> simp [*]

@[simp] theorem consume_radio (s : State) : (consume s).radio = s.radio := by
  unfold consume; split <;> simp [*]

@[simp] theorem consume_fault (s : State) : (consume s).fault = s.fault := by
  unfold consume; split <;> simp [*]

@[simp] theorem consume_out (s : State) : (consume s).out = s.out := by
  unfold consume; split <;> simp [*]

@[simp] theorem consume_latches (s : State) : (consume s).latches = s.latches := by
  unfold consume; split <;> simp [*]

@[simp] theorem consume_caller (s : State) : (consume s).caller = s.caller := by
  unfold consume; split <;> simp [*]

@[simp] theorem consume_readData (s : State) : (consume s).readData = s.readData := by
  unfold consume; split <;> simp [*]

@[simp] theorem consume_script (s : State) : (consume s).script = s.script.tail := by
  unfold consume; split <;> simp [*]

end Sys2Proof.Machine
end

