-- ==== Sys2Proof/Laws/Ops.lean ====
section
/-! SUPPORT. What each shared operation can do: the remaining micro-steps, the issue prologue, the receiver bodies, OffRequest and OnRequest, the ticks and the compare interrupt. -/

namespace Sys2Proof.Machine

/-! ### Remaining micro-steps -/

/-- An agent that can have micro-steps reads back what was put. -/
theorem cont_setCont_self (s : State) {a : Agent} (h : a ≠ .timer) (l : List MicroStep) : (s.setCont a l).cont a = l := by
  cases a <;> first | rfl | exact absurd rfl h

@[simp] theorem cont_setCont_caller (s : State) (c : Caller) (l : List MicroStep) :
    (s.setCont c.agent l).cont c.agent = l := by
  cases c <;> rfl

@[simp] theorem cont_setCont_issuer (s u : State) (l : List MicroStep) : (u.setCont s.issuer l).cont s.issuer = l :=
  cont_setCont_caller u s.caller l

theorem cont_setCont_ne (s : State) {a b : Agent} (h : a ≠ b) (l : List MicroStep) : (s.setCont a l).cont b = s.cont b := by
  cases a <;> cases b <;> first | rfl | exact absurd rfl h

@[simp] theorem put_put (c : Conts) (a : Agent) (l m : List MicroStep) : (c.put a l).put a m = c.put a m := by
  cases a <;> rfl

/-- Putting back what is there changes nothing. -/
theorem put_cont (s : State) (a : Agent) : s.conts.put a (s.cont a) = s.conts := by cases a <;> rfl

/-- A ready issuer's list may be put back empty. -/
theorem put_issuer_nil {s : State} (h : Ready s) : s.conts.put s.issuer [] = s.conts := by
  have := put_cont s s.issuer
  rwa [h] at this

@[simp] theorem issuer_asCaller (s : State) (c : Caller) : (s.asCaller c).issuer = c.agent := rfl

theorem issuer_congr {s t : State} (h : t.caller = s.caller) : t.issuer = s.issuer := by
  simp [State.issuer, h]

theorem cont_congr {s t : State} (h : t.conts = s.conts) (a : Agent) : t.cont a = s.cont a := by
  cases a <;> simp [State.cont, h]

/-- What one agent's list gains by a put was put, and into that agent's own list. -/
theorem mem_cont_of_put {s t : State} {a b : Agent} {l : List MicroStep} {m : MicroStep}
    (ht : t.conts = s.conts.put a l) (h : m ∈ t.cont b) : (m ∈ l ∧ b = a) ∨ m ∈ s.cont b := by
  have h' : m ∈ (s.setCont a l).cont b := cont_congr (t := t) (s := s.setCont a l) ht b ▸ h
  by_cases hb : b = a
  · subst hb
    cases b <;> first | exact .inl ⟨h', rfl⟩ | exact .inr h'
  · rw [cont_setCont_ne s (Ne.symm hb)] at h'
    exact .inr h'

@[simp] theorem cont_asCaller (s : State) (c : Caller) (a : Agent) : (s.asCaller c).cont a = s.cont a := by
  cases a <;> rfl

@[simp] theorem cont_consume (s : State) (a : Agent) : (consume s).cont a = s.cont a := cont_congr (consume_conts s) a

@[simp] theorem cmdLo_consume (s : State) (c : Caller) : (consume s).cmdLo c = s.cmdLo c := by
  cases c <;> simp [State.cmdLo]

theorem busy_eq_false_iff (s : State) : s.busy = false ↔ Ready s := by
  simp [State.busy, Ready]

/-! ### The prologue -/

/-- A ready issuer's command runs its body, if it is no clock command or the clock is initialised. -/
theorem prologue_ready {clock : Bool} {body : State → State} {s : State} (h : Ready s)
    (hc : clock = true → s.clock.clockInitialised = true) : prologue clock body s = body s := by
  have hb := (busy_eq_false_iff s).2 h
  cases clock <;> simp_all [prologue]

/-- What the prologue can do: the two faults, or the body. -/
theorem prologue_cases (clock : Bool) (body : State → State) (s : State) :
    prologue clock body s = s.raise .busy ∨ prologue clock body s = s.raise .notInitialised ∨
    (Ready s ∧ (clock = true → s.clock.clockInitialised = true) ∧ prologue clock body s = body s) := by
  by_cases hb : s.busy
  · simp [prologue, hb]
  · have hr := (busy_eq_false_iff s).1 (by simpa using hb)
    by_cases hc : (clock && !s.clock.clockInitialised) = true
    · simp [prologue, hb, hc]
    · refine .inr (.inr ⟨hr, ?_, ?_⟩)
      · cases clock <;> simp_all
      · simp [prologue, hb, hc]

/-! ### The receiver -/

theorem radioOnBody_eq (s : State) : radioOnBody s = receiverOn s := by
  rcases s with ⟨_, _, _, ⟨_, on, _⟩, _, _, _, _, _, _, _, _, _, _⟩
  cases on <;> simp [radioOnBody, receiverOn, State.emit]

theorem radioOffBody_eq (s : State) : radioOffBody s = receiverOff s := by
  rcases s with ⟨_, _, _, ⟨_, on, _⟩, _, _, _, _, _, _, _, _, _, _⟩
  cases on <;> simp [radioOffBody, receiverOff, State.emit]

/-- The activity gate of OffRequest, as a proposition (R142). -/
theorem offAllowed_iff (i : Inputs) :
    offAllowed i = true ↔ i.rxActive = false ∧ (i.txActive = false ∨ i.txFrameAlreadyDequeued = true) := by
  cases h : i.rxActive <;> cases h' : i.txActive <;> cases h'' : i.txFrameAlreadyDequeued <;>
    simp [offAllowed, h, h', h'']

/-! ### Commands -/

/-- The opcode is in 0x03 to 0x09 (R103 (3)). -/
def isClockCommand (i : Instr) : Bool := decide (3 ≤ i.opcode.code.toNat) && decide (i.opcode.code.toNat ≤ 9)

/-- The body each meaning hands to the prologue. -/
def bodyOf (i : Instr) : State → State :=
  match i with
  | .init => initBody
  | .reset => resetBody
  | .setRollover v => setRolloverBody v
  | .setCount v => setCountBody v
  | .getCount => getCountBody
  | .getTrigger => getTriggerBody
  | .setTrigger t => setTriggerBody t
  | .cancelTrigger => cancelTriggerBody
  | .realign rc rst => realignBody rc rst
  | .enable f => enableBody f
  | .softEnable f => softEnableBody f
  | .disable f => disableBody f
  | .hardDisable => hardDisableBody
  | .onRequest => onRequestBody
  | .offRequest => offRequestBody
  | .radioOn => radioOnBody
  | .radioOff => radioOffBody
  | .setChannel ch => setChannelBody ch
  | .updateChannel => updateChannelBody
  | .setTxPower atten => setTxPowerBody atten
  | .updateTxPower => updateTxPowerBody

/-- Every meaning is its body behind the prologue. -/
theorem exec_eq (i : Instr) (s : State) : exec i s = .next (prologue (isClockCommand i) (bodyOf i) s) := by
  cases i <;> rfl

/-- What issuing a command can do: the prologue's two faults, or the command's body (R103, R203). -/
theorem exec_cases {i : Instr} {s t : State} (h : exec i s = .next t) :
    t = s.raise .busy ∨ t = s.raise .notInitialised ∨
    (Ready s ∧ (isClockCommand i = true → s.clock.clockInitialised = true) ∧ t = bodyOf i s) := by
  rw [exec_eq] at h
  cases h
  exact prologue_cases _ _ s

/-- A ready issuer's command is its body. -/
theorem exec_ready {i : Instr} {s : State} (h : Ready s)
    (hc : isClockCommand i = true → s.clock.clockInitialised = true) : exec i s = .next (bodyOf i s) := by
  rw [exec_eq, prologue_ready h hc]

/-- The commands the prologue checks are the table's opcodes 0x03 to 0x09 (R103). -/
theorem isClockCommand_iff (i : Instr) :
    isClockCommand i = true ↔ 0x03 ≤ i.opcode.code ∧ i.opcode.code ≤ 0x09 := by
  rw [BitVec.le_def, BitVec.le_def, show (0x03 : Byte).toNat = 3 from rfl, show (0x09 : Byte).toNat = 9 from rfl]
  simp only [isClockCommand, Bool.and_eq_true, decide_eq_true_eq]

/-! ### The compare interrupt -/

/-- Phase A writes the clock and the trace only. -/
theorem takeCompareInterrupt_frame (s : State) :
    takeCompareInterrupt s =
      { s with clock := (takeCompareInterrupt s).clock, out := (takeCompareInterrupt s).out } := by
  cases h : s.clock.compareState <;>
    simp [takeCompareInterrupt, h, CompareState.hasRollover, CompareState.hasTrigger, rolloverStage, triggerStage,
      armStage, State.emit]

/-- A tick writes the clock only. -/
@[simp] theorem timerTick_clock (s : State) : (timerTick s).clock = tickClock s.cfg s.clock := rfl

/-- What a tick can do to the clock (R100). -/
theorem tickClock_cases (p : Params) (c : Clock) :
    (0 < c.delayHold ∧ tickClock p c = { c with delayHold := c.delayHold - 1 }) ∨
    (c.delayHold = 0 ∧ c.subtick + 1 = p.ticksPerBackoff ∧ tickClock p c = backoffElapsed c) ∨
    (c.delayHold = 0 ∧ c.subtick + 1 ≠ p.ticksPerBackoff ∧ tickClock p c = { c with subtick := c.subtick + 1 }) := by
  unfold tickClock
  by_cases h : 0 < c.delayHold
  · exact .inl ⟨h, by simp [h]⟩
  · by_cases h' : c.subtick + 1 = p.ticksPerBackoff
    · exact .inr (.inl ⟨by omega, h', by rw [if_neg h, if_pos h']⟩)
    · exact .inr (.inr ⟨by omega, h', by rw [if_neg h, if_neg h']⟩)

@[simp] theorem tickClock_rollover (p : Params) (c : Clock) : (tickClock p c).rollover = c.rollover := by
  rcases tickClock_cases p c with ⟨_, h⟩ | ⟨_, _, h⟩ | ⟨_, _, h⟩ <;> simp [h, backoffElapsed]

@[simp] theorem tickClock_compare (p : Params) (c : Clock) : (tickClock p c).compare = c.compare := by
  rcases tickClock_cases p c with ⟨_, h⟩ | ⟨_, _, h⟩ | ⟨_, _, h⟩ <;> simp [h, backoffElapsed]

@[simp] theorem tickClock_trigger (p : Params) (c : Clock) : (tickClock p c).trigger = c.trigger := by
  rcases tickClock_cases p c with ⟨_, h⟩ | ⟨_, _, h⟩ | ⟨_, _, h⟩ <;> simp [h, backoffElapsed]

@[simp] theorem tickClock_triggerWritten (p : Params) (c : Clock) : (tickClock p c).triggerWritten = c.triggerWritten := by
  rcases tickClock_cases p c with ⟨_, h⟩ | ⟨_, _, h⟩ | ⟨_, _, h⟩ <;> simp [h, backoffElapsed]

@[simp] theorem tickClock_compareState (p : Params) (c : Clock) : (tickClock p c).compareState = c.compareState := by
  rcases tickClock_cases p c with ⟨_, h⟩ | ⟨_, _, h⟩ | ⟨_, _, h⟩ <;> simp [h, backoffElapsed]

@[simp] theorem tickClock_cmpIe (p : Params) (c : Clock) : (tickClock p c).cmpIe = c.cmpIe := by
  rcases tickClock_cases p c with ⟨_, h⟩ | ⟨_, _, h⟩ | ⟨_, _, h⟩ <;> simp [h, backoffElapsed]

@[simp] theorem tickClock_isrPhase (p : Params) (c : Clock) : (tickClock p c).isrPhase = c.isrPhase := by
  rcases tickClock_cases p c with ⟨_, h⟩ | ⟨_, _, h⟩ | ⟨_, _, h⟩ <;> simp [h, backoffElapsed]

@[simp] theorem tickClock_clockInitialised (p : Params) (c : Clock) : (tickClock p c).clockInitialised = c.clockInitialised := by
  rcases tickClock_cases p c with ⟨_, h⟩ | ⟨_, _, h⟩ | ⟨_, _, h⟩ <;> simp [h, backoffElapsed]

end Sys2Proof.Machine
end

