-- ==== Sys2Proof/Laws/Step.lean ====
section
/-! SUPPORT. What a step can do, once: `step_cases` gives the twelve shapes of a step that answers a next state. Rules of the whole machine are proved by cases on it. -/

namespace Sys2Proof.Machine

/-- The shapes of a step from `s`. -/
inductive StepCase (s : State) : State → Prop where
  /-- A halted block's STATUS is inspected (R62). -/
  | inspect (c : FaultCode) (v : Word) (hf : s.fault = some c) : StepCase s ((consume s).deliver v)
  /-- A window read is answered (R66). -/
  | read (c : Caller) (offset width : Nat) (hf : s.fault = none)
      (hn : nextStimulus s = .access c (.read offset width)) (v : Word)
      (hv : readWindow c offset width (consume s) = .ok v) : StepCase s ((consume s).deliver v)
  /-- A window read raises a fault (R61, R64). -/
  | readFault (c : Caller) (offset width : Nat) (hf : s.fault = none)
      (hn : nextStimulus s = .access c (.read offset width)) (e : FaultCode)
      (hv : readWindow c offset width (consume s) = .error e) : StepCase s ((consume s).raise e)
  /-- `CMD_LO` is latched (R66). -/
  | latch (c : Caller) (v : Word) (hf : s.fault = none)
      (hn : nextStimulus s = .access c (.write 0x00 4 v)) : StepCase s ((consume s).latchLo c v)
  /-- A write is no admitted access (R64). -/
  | badWrite (c : Caller) (offset width : Nat) (v : Word) (hf : s.fault = none)
      (hn : nextStimulus s = .access c (.write offset width v)) : StepCase s ((consume s).raise .badAccess)
  /-- A command is issued and faults in the prologue, or its word is no command (R103 (1) to (3)). -/
  | issueFault (c : Caller) (hi : Word) (hf : s.fault = none)
      (hn : nextStimulus s = .access c (.write 0x04 4 hi)) (e : FaultCode) :
      StepCase s (((consume s).asCaller c).raise e)
  /-- A command is issued and its body runs (R63). -/
  | issue (c : Caller) (hi : Word) (i : Instr) (hf : s.fault = none)
      (hn : nextStimulus s = .access c (.write 0x04 4 hi)) (hd : issuedNext s = some i)
      (hr : s.cont c.agent = []) (hc : isClockCommand i = true → s.clock.clockInitialised = true) :
      StepCase s ((bodyOf i ((consume s).asCaller c)).latchHi c hi)
  /-- An agent runs its next micro-step (R39). -/
  | micro (a : Agent) (m : MicroStep) (rest : List MicroStep) (hf : s.fault = none)
      (ha : stimulusAgent (nextStimulus s) = a) (ht : a ≠ .timer) (hm : microNext s = some m)
      (hc : s.cont a = m :: rest) : StepCase s (runMicro m a rest (consume s))
  /-- Phase B of the sequencer (R122). -/
  | phaseB (hf : s.fault = none) (hn : nextStimulus s = .isr) (hp : s.clock.isrPhase = .triggerCallbackDue) :
      StepCase s (returnFromInterrupt (consume s))
  /-- Phase A of the sequencer (R121, R211). -/
  | phaseA (hf : s.fault = none) (hn : nextStimulus s = .isr) (hs : isrMayStart s = true) :
      StepCase s (takeCompareInterrupt (consume s))
  /-- A tick (R100). -/
  | tick (hf : s.fault = none) (hn : nextStimulus s = .tick) (hi : s.clock.clockInitialised = true) :
      StepCase s (timerTick (consume s))
  /-- An input changes (R38, R42). -/
  | drive (i : InputLine) (v : Bool) (hf : s.fault = none) (hn : nextStimulus s = .drive i v) :
      StepCase s ((consume s).drive i v)

/-- A `CMD_HI` write of a word that is a command issues it. -/
theorem issuedNext_of_decode {s : State} {c : Caller} {hi : Word} {i : Instr}
    (hn : nextStimulus s = .access c (.write 0x04 4 hi)) (hd : decode (joinHalves hi (s.cmdLo c)) = .ok i) :
    issuedNext s = some i := by
  simp only [issuedNext, hn, hd]

/-- A `CMD_HI` write: the word is a command and is executed, or it faults (R63, R103). -/
theorem issue_cases {s t : State} {c : Caller} {hi : Word} (hf : s.fault = none)
    (hn : nextStimulus s = .access c (.write 0x04 4 hi)) (h : issue c hi (consume s) = .next t) : StepCase s t := by
  have hlo : (consume s).cmdLo c = s.cmdLo c := by simp
  unfold issue at h
  rw [hlo] at h
  cases hd : decode (joinHalves hi (s.cmdLo c)) with
  | error e =>
    simp only [hd, command, Host.Outcome.next.injEq] at h
    subst h
    rcases prologue_cases false (fun t => t.raise (decodeFault e)) ((consume s).asCaller c) with h | h | ⟨_, _, h⟩ <;>
      rw [h] <;> exact .issueFault c hi hf hn _
  | ok i =>
    simp only [hd, exec_eq, onNext, Host.Outcome.next.injEq] at h
    subst h
    have hi' := issuedNext_of_decode hn hd
    rcases prologue_cases (isClockCommand i) (bodyOf i) ((consume s).asCaller c) with h | h | ⟨hr, hc, h⟩
    · rw [h]; exact .issueFault c hi hf hn _
    · rw [h]; exact .issueFault c hi hf hn _
    · rw [h]; exact .issue c hi i hf hn hi' (by simpa [Ready] using hr) (by simpa using hc)

/-- A micro-step answer is the head of the agent's list. -/
theorem microAnswer_cases {a : Agent} {u t : State} (h : microAnswer a u = .next t) :
    ∃ m rest, u.cont a = m :: rest ∧ t = runMicro m a rest u := by
  unfold microAnswer microStep at h
  cases hc : u.cont a with
  | nil => simp [hc] at h
  | cons m rest => simp [hc] at h; exact ⟨m, rest, rfl, h.symm⟩

/-- An enabled step is the step. -/
theorem whenEnabled_next {b : Bool} {a : Agent} {o : Answer} {t : State} (h : whenEnabled b a o = .next t) :
    b = true ∧ o = .next t := by
  cases b <;> simp_all [whenEnabled]

/-- What ISR_CMP's step can do. -/
theorem isrStep_cases {s t : State} (hf : s.fault = none) (hn : nextStimulus s = .isr)
    (h : isrStep (consume s) = .next t) : StepCase s t := by
  unfold isrStep at h
  split at h
  · obtain ⟨m, rest, hc, rfl⟩ := microAnswer_cases h
    rw [cont_consume] at hc
    refine .micro .isrCmp m rest hf (by rw [hn]; rfl) (by decide) ?_ hc
    have : s.conts.isrCmp = m :: rest := hc
    simp [microNext, hn, this]
  · split at h
    · rename_i hp
      cases h
      exact .phaseB hf hn (by simpa using hp)
    · obtain ⟨hs, ho⟩ := whenEnabled_next h
      cases ho
      exact .phaseA hf hn (by simpa [isrMayStart] using hs)

/-- A step that answers a next state has one of the shapes. -/
theorem step_cases {s t : State} (h : step s = .next t) : StepCase s t := by
  unfold step runStep at h
  cases hf : s.fault with
  | some c =>
    simp only [hf, haltedStep] at h
    cases hi : inspects (nextStimulus s) with
    | none => simp [hi] at h
    | some a => simp only [hi, Host.Outcome.next.injEq] at h; subst h; exact .inspect c _ hf
  | none =>
    simp only [hf] at h
    cases hn : nextStimulus s with
    | access c a =>
      simp only [hn, runStimulus] at h
      obtain ⟨-, ho⟩ := whenEnabled_next h
      clear h
      cases a with
      | read offset width =>
        simp only [accessStep, readAccess, Host.Outcome.next.injEq] at ho
        subst ho
        cases hv : readWindow c offset width (consume s) with
        | ok v => exact .read c offset width hf hn v hv
        | error e => exact .readFault c offset width hf hn e hv
      | write offset width v =>
        simp only [accessStep] at ho
        split at ho
        · rename_i hw
          obtain ⟨rfl, rfl⟩ : offset = 4 ∧ width = 4 := by simpa [issues] using hw
          exact issue_cases hf hn ho
        · simp only [latchAccess, Host.Outcome.next.injEq] at ho
          subst ho
          split
          · rename_i hl
            obtain ⟨rfl, rfl⟩ := hl
            exact .latch c v hf hn
          · exact .badWrite c offset width v hf hn
    | micro c =>
      simp only [hn, runStimulus] at h
      obtain ⟨-, h⟩ := whenEnabled_next h
      obtain ⟨m, rest, hc, rfl⟩ := microAnswer_cases h
      rw [cont_consume] at hc
      exact .micro c.agent m rest hf (by rw [hn]; rfl) (by cases c <;> decide) (by simp [microNext, hn, hc]) hc
    | isr =>
      simp only [hn, runStimulus] at h
      exact isrStep_cases hf hn h
    | tick =>
      simp only [hn, runStimulus] at h
      obtain ⟨hr, ho⟩ := whenEnabled_next h
      cases ho
      refine .tick hf hn ?_
      simp only [timerRuns, consume_clock, Bool.and_eq_true] at hr
      exact hr.1
    | drive i v =>
      simp only [hn, runStimulus, Host.Outcome.next.injEq] at h
      subst h
      exact .drive i v hf hn

/-- Scheduling a step and taking it off again is no change. -/
@[simp] theorem consume_schedule (s : State) (x : Stimulus) : consume (s.schedule x) = s := rfl

@[simp] theorem nextStimulus_schedule (s : State) (x : Stimulus) : nextStimulus (s.schedule x) = x := rfl

/-- The step of an unfaulted block is the scheduled one. -/
theorem step_schedule {s : State} (hf : s.fault = none) (x : Stimulus) : step (s.schedule x) = runStimulus x s := by
  unfold step runStep
  rw [show (s.schedule x).fault = none from hf]
  rfl

end Sys2Proof.Machine
end

