-- ==== Sys2Proof/Laws/Bodies.lean ====
section
/-! SUPPORT. What the body of a command and a micro-step can do, over all of them: what neither writes, how faults arise, and what is left to run. -/

namespace Sys2Proof.Machine

/-- What no body and no micro-step writes: the parameters, the inputs, the latches and the model's own fields. -/
structure SameSurroundings (s t : State) : Prop where
  cfg : t.cfg = s.cfg
  inputs : t.inputs = s.inputs
  latches : t.latches = s.latches
  caller : t.caller = s.caller
  readData : t.readData = s.readData
  script : t.script = s.script
  freeCount : t.freeCount = s.freeCount

/-- A command's body leaves the surroundings (R38, R42, R63). -/
theorem bodyOf_surroundings (i : Instr) (s : State) : SameSurroundings s (bodyOf i s) := by
  constructor <;> cases i <;>
    simp only [bodyOf, initBody, resetBody, setRolloverBody, setCountBody, getCountBody, getTriggerBody,
      setTriggerBody, cancelTriggerBody, realignBody, enableBody, softEnableBody, disableBody, hardDisableBody,
      onRequestBody, offRequestBody, radioOnBody, radioOffBody, setChannelBody, updateChannelBody, setTxPowerBody,
      updateTxPowerBody, onRequestStep1, offRequestStep1, updateChannelStep1, updateTxPowerStep] <;>
    (repeat' split) <;> rfl

/-- A micro-step leaves the surroundings. -/
theorem runMicro_surroundings (m : MicroStep) (a : Agent) (rest : List MicroStep) (s : State) :
    SameSurroundings s (runMicro m a rest s) := by
  constructor <;> cases m <;>
    simp only [runMicro, realignStep2, realignStep3, forceDelay, radioOnBody, radioOffBody, offRequestStep1,
      offRequestStep2, emitStep, onRequestStep1, setChannelStep2, updateChannelStep1, setTxPowerStep2,
      updateTxPowerStep] <;>
    (repeat' split) <;> rfl

/-- A command's body faults and does nothing else, or does not fault (R200, R203). -/
theorem bodyOf_fault (i : Instr) (s : State) :
    (∃ c, bodyOf i s = s.raise c) ∨ (bodyOf i s).fault = s.fault := by
  cases i <;>
    simp only [bodyOf, initBody, resetBody, setRolloverBody, setCountBody, getCountBody, getTriggerBody,
      setTriggerBody, cancelTriggerBody, realignBody, enableBody, softEnableBody, disableBody, hardDisableBody,
      onRequestBody, offRequestBody, radioOnBody, radioOffBody, setChannelBody, updateChannelBody, setTxPowerBody,
      updateTxPowerBody, onRequestStep1, offRequestStep1, updateChannelStep1, updateTxPowerStep] <;>
    (repeat' split) <;> first | exact .inl ⟨_, rfl⟩ | exact .inr rfl | exact .inr trivial

/-- A micro-step never faults. -/
theorem runMicro_fault (m : MicroStep) (a : Agent) (rest : List MicroStep) (s : State) :
    (runMicro m a rest s).fault = s.fault := by
  cases m <;>
    simp only [runMicro, realignStep2, realignStep3, forceDelay, radioOnBody, radioOffBody, offRequestStep1,
      offRequestStep2, emitStep, onRequestStep1, setChannelStep2, updateChannelStep1, setTxPowerStep2,
      updateTxPowerStep] <;>
    (repeat' split) <;> rfl

/-- What a command's body leaves to run: as before, or the rest of that command for its issuer (R39). -/
theorem bodyOf_conts (i : Instr) (s : State) :
    (bodyOf i s).conts = s.conts ∨ ∃ l, legalCont l = true ∧ (bodyOf i s).conts = s.conts.put s.issuer l := by
  cases i <;>
    simp only [bodyOf, initBody, resetBody, setRolloverBody, setCountBody, getCountBody, getTriggerBody,
      setTriggerBody, cancelTriggerBody, realignBody, enableBody, softEnableBody, disableBody, hardDisableBody,
      onRequestBody, offRequestBody, radioOnBody, radioOffBody, setChannelBody, updateChannelBody, setTxPowerBody,
      updateTxPowerBody, onRequestStep1, offRequestStep1, updateChannelStep1, updateTxPowerStep] <;>
    (repeat' split) <;> first | exact .inl rfl | exact .inl trivial | exact .inr ⟨_, rfl, rfl⟩

/-- What stands behind the head of a legal rest is one. -/
theorem legalCont_tail {m : MicroStep} {l : List MicroStep} (h : legalCont (m :: l) = true) : legalCont l = true := by
  unfold legalCont at h
  split at h <;> simp_all [legalCont]

/-- An OffRequest is the last thing a command does (R142, R152, R155). -/
theorem legalCont_offRequest1 {l : List MicroStep} (h : legalCont (.offRequest1 :: l) = true) : l = [] := by
  cases l with
  | nil => rfl
  | cons => simp [legalCont] at h

/-- What a micro-step leaves to run is the rest of the same command (R39). -/
theorem runMicro_conts (m : MicroStep) (a : Agent) (rest : List MicroStep) (s : State)
    (h : legalCont (m :: rest) = true) :
    ∃ l, legalCont l = true ∧ (runMicro m a rest s).conts = s.conts.put a l := by
  have ht := legalCont_tail h
  have ho : m = .offRequest1 → legalCont (.offRequest2 :: rest) = true := by
    rintro rfl
    rw [legalCont_offRequest1 h]
    rfl
  cases m <;>
    simp only [runMicro, realignStep2, realignStep3, forceDelay, radioOnBody, radioOffBody, offRequestStep1,
      offRequestStep2, emitStep, onRequestStep1, setChannelStep2, updateChannelStep1, setTxPowerStep2,
      updateTxPowerStep] <;>
    (repeat' split) <;> first | exact ⟨_, ht, rfl⟩ | exact ⟨_, ho rfl, rfl⟩ | exact ⟨_, rfl, rfl⟩

/-- A micro-step touches no list but its agent's. -/
theorem runMicro_conts_put (m : MicroStep) (a : Agent) (rest : List MicroStep) (s : State) :
    ∃ l, (runMicro m a rest s).conts = s.conts.put a l := by
  cases m <;>
    simp only [runMicro, realignStep2, realignStep3, forceDelay, radioOnBody, radioOffBody, offRequestStep1,
      offRequestStep2, emitStep, onRequestStep1, setChannelStep2, updateChannelStep1, setTxPowerStep2,
      updateTxPowerStep] <;>
    (repeat' split) <;> exact ⟨_, rfl⟩

/-- An agent with nothing left has run to its end. -/
theorem runRemaining_nil {n : Nat} {a : Agent} {s : State} (h : s.cont a = []) : runRemaining n a s = s := by
  cases n <;> simp [runRemaining, microStep, h]

/-- Running what is left runs its head, and goes on. -/
theorem runRemaining_cons {n : Nat} {a : Agent} {s : State} {m : MicroStep} {rest : List MicroStep}
    (h : s.cont a = m :: rest) : runRemaining (n + 1) a s = runRemaining n a (runMicro m a rest s) := by
  simp [runRemaining, microStep, h]

/-- Appending to a trace whose toggles alternate keeps them alternating when the new events go on from there. -/
theorem togglesAlternate_append (on : Bool) (l m : List Event) :
    togglesAlternate on (l ++ m) = (togglesAlternate on l && togglesAlternate (receiverAfter on l) m) := by
  induction l generalizing on with
  | nil => simp [togglesAlternate, receiverAfter]
  | cons e l ih => cases e <;> simp [togglesAlternate, receiverAfter, ih, Bool.and_assoc]

/-- The receiver after two traces is the receiver after the second, from where the first left it. -/
theorem receiverAfter_append (on : Bool) (l m : List Event) :
    receiverAfter on (l ++ m) = receiverAfter (receiverAfter on l) m := by
  induction l generalizing on with
  | nil => rfl
  | cons e l ih => cases e <;> exact ih _

/-- `n + 1` ticks are `n` ticks and one more. -/
theorem ticks_succ (n : Nat) (s : State) : ticks (n + 1) s = timerTick (ticks n s) := by
  induction n generalizing s with
  | zero => rfl
  | succ n ih =>
    show ticks (n + 1) (timerTick s) = _
    rw [ih]
    rfl

/-- Ticks in two runs are ticks in one. -/
theorem ticks_add (m n : Nat) (s : State) : ticks (m + n) s = ticks n (ticks m s) := by
  induction m generalizing s with
  | zero => simp [ticks]
  | succ m ih =>
    rw [Nat.succ_add]
    exact ih (timerTick s)

end Sys2Proof.Machine
end

