-- ==== Sys2Proof/Laws/Config.lean ====
section
/-! SUPPORT. What a well-formed configuration gives (R7). -/

namespace Sys2Proof

theorem RawParams.wellFormed_iff (p : RawParams) :
    p.wellFormed = true ↔
      0 < p.rolloverDefault ∧ 0 < p.ticksPerBackoff ∧ 0 < p.ticksPerSymbol ∧
      p.ticksExpectedAtSfd < p.ticksPerBackoff ∧ p.flagWidth = 8 ∧ p.chMin = 11 ∧ p.chMax = 28 ∧
      (p.chMin ≤ p.channelInit ∧ p.channelInit ≤ p.chMax) ∧
      p.txPowerTable.length = p.maxAtten.toNat + 1 ∧ p.windowBase % 64 = 0 := by
  simp only [RawParams.wellFormed, Bool.and_eq_true, decide_eq_true_eq]
  tauto

theorem Params.rolloverDefault_pos (p : Params) : 0 < p.rolloverDefault :=
  ((RawParams.wellFormed_iff _).1 p.wf).1

theorem Params.ticksPerBackoff_pos (p : Params) : 0 < p.ticksPerBackoff :=
  ((RawParams.wellFormed_iff _).1 p.wf).2.1

theorem Params.sfd_lt_backoff (p : Params) : p.ticksExpectedAtSfd < p.ticksPerBackoff :=
  ((RawParams.wellFormed_iff _).1 p.wf).2.2.2.1

theorem Params.chMin_eq (p : Params) : p.chMin = 11 := ((RawParams.wellFormed_iff _).1 p.wf).2.2.2.2.2.1

theorem Params.chMax_eq (p : Params) : p.chMax = 28 := ((RawParams.wellFormed_iff _).1 p.wf).2.2.2.2.2.2.1

theorem Params.channelInit_inRange (p : Params) : p.chMin ≤ p.channelInit ∧ p.channelInit ≤ p.chMax :=
  ((RawParams.wellFormed_iff _).1 p.wf).2.2.2.2.2.2.2.1

theorem Params.table_length (p : Params) : p.txPowerTable.length = p.maxAtten.toNat + 1 :=
  ((RawParams.wellFormed_iff _).1 p.wf).2.2.2.2.2.2.2.2.1

/-- Unchecked parameters pass exactly when they are well formed, and pass unchanged. -/
theorem Params.ofRaw_eq_some (p : RawParams) (q : Params) : Params.ofRaw p = some q ↔ q.toRawParams = p := by
  unfold Params.ofRaw
  constructor
  · intro h
    split at h
    · cases h; rfl
    · cases h
  · rintro rfl
    simp [q.wf]

namespace Machine

/-- The channel check is 11 to 28 (R175). -/
theorem channelInRange_iff (p : Params) (ch : Byte) :
    channelInRange p ch = true ↔ 11 ≤ ch.toNat ∧ ch.toNat ≤ 28 := by
  simp [channelInRange, p.chMin_eq, p.chMax_eq, BitVec.le_def]

/-- A clamped attenuation indexes the table (R177). -/
theorem clampAtten_toNat (p : Params) (atten : Byte) :
    (clampAtten p atten).toNat = min atten.toNat p.maxAtten.toNat := by
  unfold clampAtten
  split <;> rename_i h <;> rw [BitVec.le_def] at h <;> omega

/-- The lookup is the table's entry, never the default (R7, R177). -/
theorem txPowerTable_clamped (p : Params) (atten : Byte) :
    p.txPowerTable[min atten.toNat p.maxAtten.toNat]? = some (txPowerOf p atten) := by
  have h := p.table_length
  have hk : min atten.toNat p.maxAtten.toNat < p.txPowerTable.length := by omega
  simp [txPowerOf, txPowerEntry, clampAtten_toNat, List.getD_eq_getElem?_getD, List.getElem?_eq_getElem hk]

/-- The register value of an attenuation is in the table (R177). -/
theorem txPowerOf_mem (p : Params) (atten : Byte) : txPowerOf p atten ∈ p.txPowerTable :=
  List.mem_of_getElem? (txPowerTable_clamped p atten)

/-- The forced delay fits `force_delay`'s u16 (R114). -/
theorem realignCompute_delay_lt (p : Params) (rc : Word) (rst : Half) (rollover count : Word) :
    (realignCompute p rc rst rollover count).delay < 2 ^ 16 := by
  have h := p.sfd_lt_backoff
  rw [BitVec.lt_def] at h
  have h1 := rst.isLt
  have h2 := p.ticksPerBackoff.isLt
  by_cases hd : (rst.toNat : Int) - p.ticksExpectedAtSfd.toNat < 0 <;>
    simp only [realignCompute, rawDelay, hd, if_true, if_false] <;> omega

end Machine

end Sys2Proof
end

