-- ==== Sys2Proof/Laws/Decode.lean ====
section
/-! SUPPORT. The fields of a command word: packing and taking apart (R80), the opcode table's lookups (R84), and that every command is well formed (R88). -/

namespace Sys2Proof

/-! ### Words and fields -/

theorem packFields_toNat (op b8 : Byte) (h : Half) (w : Word) :
    (packFields op b8 h w).toNat = op.toNat * 2 ^ 56 + b8.toNat * 2 ^ 48 + h.toNat * 2 ^ 32 + w.toNat := by
  show (op ++ b8 ++ h ++ w : BitVec (8 + 8 + 16 + 32)).toNat = _
  rw [BitVec.toNat_append, BitVec.toNat_append, BitVec.toNat_append, ← Nat.shiftLeft_add_eq_or_of_lt w.isLt,
    ← Nat.shiftLeft_add_eq_or_of_lt h.isLt, ← Nat.shiftLeft_add_eq_or_of_lt b8.isLt]
  simp only [Nat.shiftLeft_eq]
  omega

theorem opField_toNat (w : Command) : (opField w).toNat = w.toNat / 2 ^ 56 := by
  simp only [opField, BitVec.extractLsb'_toNat, Nat.shiftRight_eq_div_pow]
  have := w.isLt
  omega

theorem b8Field_toNat (w : Command) : (b8Field w).toNat = w.toNat / 2 ^ 48 % 2 ^ 8 := by
  simp only [b8Field, BitVec.extractLsb'_toNat, Nat.shiftRight_eq_div_pow]

theorem h16Field_toNat (w : Command) : (h16Field w).toNat = w.toNat / 2 ^ 32 % 2 ^ 16 := by
  simp only [h16Field, BitVec.extractLsb'_toNat, Nat.shiftRight_eq_div_pow]

theorem w32Field_toNat (w : Command) : (w32Field w).toNat = w.toNat % 2 ^ 32 := by
  simp [w32Field, BitVec.extractLsb'_toNat]

@[simp] theorem opField_packFields (op b8 : Byte) (h : Half) (w : Word) : opField (packFields op b8 h w) = op := by
  apply BitVec.eq_of_toNat_eq
  rw [opField_toNat, packFields_toNat]
  have := b8.isLt
  have := h.isLt
  have := w.isLt
  omega

@[simp] theorem b8Field_packFields (op b8 : Byte) (h : Half) (w : Word) : b8Field (packFields op b8 h w) = b8 := by
  apply BitVec.eq_of_toNat_eq
  rw [b8Field_toNat, packFields_toNat]
  have := b8.isLt
  have := h.isLt
  have := w.isLt
  omega

@[simp] theorem h16Field_packFields (op b8 : Byte) (h : Half) (w : Word) : h16Field (packFields op b8 h w) = h := by
  apply BitVec.eq_of_toNat_eq
  rw [h16Field_toNat, packFields_toNat]
  have := h.isLt
  have := w.isLt
  omega

@[simp] theorem w32Field_packFields (op b8 : Byte) (h : Half) (w : Word) : w32Field (packFields op b8 h w) = w := by
  apply BitVec.eq_of_toNat_eq
  rw [w32Field_toNat, packFields_toNat]
  have := w.isLt
  omega

/-- A word is its four fields. -/
theorem packFields_fields (w : Command) : packFields (opField w) (b8Field w) (h16Field w) (w32Field w) = w := by
  apply BitVec.eq_of_toNat_eq
  rw [packFields_toNat, opField_toNat, b8Field_toNat, h16Field_toNat, w32Field_toNat]
  have := w.isLt
  omega

theorem packFields_inj {a b a' b' : Byte} {c c' : Half} {d d' : Word} :
    packFields a b c d = packFields a' b' c' d' ↔ a = a' ∧ b = b' ∧ c = c' ∧ d = d' := by
  constructor
  · intro h
    exact ⟨by simpa using congrArg opField h, by simpa using congrArg b8Field h, by simpa using congrArg h16Field h,
      by simpa using congrArg w32Field h⟩
  · rintro ⟨rfl, rfl, rfl, rfl⟩
    rfl

theorem packFields_and (a a' b b' : Byte) (c c' : Half) (d d' : Word) :
    packFields a b c d &&& packFields a' b' c' d' = packFields (a &&& a') (b &&& b') (c &&& c') (d &&& d') := by
  show (a ++ b ++ c ++ d : BitVec (8 + 8 + 16 + 32)) &&& (a' ++ b' ++ c' ++ d' : BitVec (8 + 8 + 16 + 32)) = _
  rw [BitVec.and_append, BitVec.and_append, BitVec.and_append]
  rfl

/-- The two halves of a word join to it (R65). -/
@[simp] theorem joinHalves_halves (w : Command) : joinHalves (highHalf w) (lowHalf w) = w := by
  apply BitVec.eq_of_toNat_eq
  show (highHalf w ++ lowHalf w : BitVec (32 + 32)).toNat = _
  rw [BitVec.toNat_append, ← Nat.shiftLeft_add_eq_or_of_lt (lowHalf w).isLt, Nat.shiftLeft_eq]
  simp only [highHalf, lowHalf, BitVec.extractLsb'_toNat, Nat.shiftRight_eq_div_pow]
  have := w.isLt
  omega

/-! ### The opcode table -/

theorem Opcode.mem_all (o : Opcode) : o ∈ Opcode.all := by cases o <;> decide

theorem Opcode.ofByte_code (o : Opcode) : Opcode.ofByte o.code = some o := by cases o <;> rfl

/-- A byte selects a row exactly when it is the row's opcode. -/
theorem Opcode.ofByte_eq_some (b : Byte) (o : Opcode) : Opcode.ofByte b = some o ↔ o.code = b := by
  constructor
  · intro h
    unfold Opcode.ofByte at h
    split at h <;> cases h <;> (apply BitVec.eq_of_toNat_eq; simp [Opcode.code, *])
  · rintro rfl
    exact o.ofByte_code

@[simp] theorem opcode_operands (o : Opcode) (w : Command) : (operands o w).opcode = o := by cases o <;> rfl

/-- The mask by fields: the opcode and the fields the format requires to be zero. -/
theorem Opcode.mask_eq (o : Opcode) :
    o.mask = match o.format with
      | .f0 => packFields 0xFF 0xFF 0xFFFF 0xFFFFFFFF
      | .fb => packFields 0xFF 0x00 0xFFFF 0xFFFFFFFF
      | .fw => packFields 0xFF 0xFF 0xFFFF 0
      | .fwh => packFields 0xFF 0xFF 0 0 := by
  cases o <;> decide

/-! ### Well-formedness -/

/-- Every command is well formed: its operands have the widths of their fields. -/
theorem Instr.wellFormed_all (i : Instr) : i.WellFormed := by
  cases i <;> simp [Instr.WellFormed, Instr.toRaw, Instr.opcode, Opcode.format, RawCommand.wellFormed] <;> omega

end Sys2Proof
end

