-- ==== Sys2Proof/Laws/PerInstr.lean ====
section
/-! SUPPORT. The family TableRow: a command's word has its row's match under its row's mask (R84), one lemma per constructor. -/

namespace Sys2Proof.Laws.TableRow

/-- The command's word is one of its row's: the bits the row fixes have the row's values (R84). -/
def Statement (i : Instr) : Prop := encode i &&& i.opcode.mask = i.opcode.pattern

/-- A word whose unused fields are zero keeps its opcode under a mask of its row. -/
theorem of_fields (op b8 : Byte) (h : Half) (w : Word) (m1 : Byte) (m2 : Half) (m3 : Word) (h1 : b8 &&& m1 = 0)
    (h2 : h &&& m2 = 0) (h3 : w &&& m3 = 0) : packFields op b8 h w &&& packFields 0xFF m1 m2 m3 = packFields op 0 0 0 := by
  rw [packFields_and, h1, h2, h3, show op &&& 0xFF = op from BitVec.and_allOnes]

theorem init : Statement .init := by
  rw [Statement, Opcode.mask_eq]
  exact of_fields _ _ _ _ _ _ _ (by simp [Instr.b8]) (by simp [Instr.h16]) (by simp [Instr.w32])

theorem reset : Statement .reset := by
  rw [Statement, Opcode.mask_eq]
  exact of_fields _ _ _ _ _ _ _ (by simp [Instr.b8]) (by simp [Instr.h16]) (by simp [Instr.w32])

theorem setRollover (v : Word) : Statement (.setRollover v) := by
  rw [Statement, Opcode.mask_eq]
  exact of_fields _ _ _ _ _ _ _ (by simp [Instr.b8]) (by simp [Instr.h16]) (by simp [Instr.w32])

theorem setCount (v : Word) : Statement (.setCount v) := by
  rw [Statement, Opcode.mask_eq]
  exact of_fields _ _ _ _ _ _ _ (by simp [Instr.b8]) (by simp [Instr.h16]) (by simp [Instr.w32])

theorem getCount : Statement .getCount := by
  rw [Statement, Opcode.mask_eq]
  exact of_fields _ _ _ _ _ _ _ (by simp [Instr.b8]) (by simp [Instr.h16]) (by simp [Instr.w32])

theorem getTrigger : Statement .getTrigger := by
  rw [Statement, Opcode.mask_eq]
  exact of_fields _ _ _ _ _ _ _ (by simp [Instr.b8]) (by simp [Instr.h16]) (by simp [Instr.w32])

theorem setTrigger (v : Word) : Statement (.setTrigger v) := by
  rw [Statement, Opcode.mask_eq]
  exact of_fields _ _ _ _ _ _ _ (by simp [Instr.b8]) (by simp [Instr.h16]) (by simp [Instr.w32])

theorem cancelTrigger : Statement .cancelTrigger := by
  rw [Statement, Opcode.mask_eq]
  exact of_fields _ _ _ _ _ _ _ (by simp [Instr.b8]) (by simp [Instr.h16]) (by simp [Instr.w32])

theorem realign (rc : Word) (rst : Half) : Statement (.realign rc rst) := by
  rw [Statement, Opcode.mask_eq]
  exact of_fields _ _ _ _ _ _ _ (by simp [Instr.b8]) (by simp [Instr.h16]) (by simp [Instr.w32])

theorem enable (f : Byte) : Statement (.enable f) := by
  rw [Statement, Opcode.mask_eq]
  exact of_fields _ _ _ _ _ _ _ (by simp [Instr.b8]) (by simp [Instr.h16]) (by simp [Instr.w32])

theorem softEnable (f : Byte) : Statement (.softEnable f) := by
  rw [Statement, Opcode.mask_eq]
  exact of_fields _ _ _ _ _ _ _ (by simp [Instr.b8]) (by simp [Instr.h16]) (by simp [Instr.w32])

theorem disable (f : Byte) : Statement (.disable f) := by
  rw [Statement, Opcode.mask_eq]
  exact of_fields _ _ _ _ _ _ _ (by simp [Instr.b8]) (by simp [Instr.h16]) (by simp [Instr.w32])

theorem hardDisable : Statement .hardDisable := by
  rw [Statement, Opcode.mask_eq]
  exact of_fields _ _ _ _ _ _ _ (by simp [Instr.b8]) (by simp [Instr.h16]) (by simp [Instr.w32])

theorem onRequest : Statement .onRequest := by
  rw [Statement, Opcode.mask_eq]
  exact of_fields _ _ _ _ _ _ _ (by simp [Instr.b8]) (by simp [Instr.h16]) (by simp [Instr.w32])

theorem offRequest : Statement .offRequest := by
  rw [Statement, Opcode.mask_eq]
  exact of_fields _ _ _ _ _ _ _ (by simp [Instr.b8]) (by simp [Instr.h16]) (by simp [Instr.w32])

theorem radioOn : Statement .radioOn := by
  rw [Statement, Opcode.mask_eq]
  exact of_fields _ _ _ _ _ _ _ (by simp [Instr.b8]) (by simp [Instr.h16]) (by simp [Instr.w32])

theorem radioOff : Statement .radioOff := by
  rw [Statement, Opcode.mask_eq]
  exact of_fields _ _ _ _ _ _ _ (by simp [Instr.b8]) (by simp [Instr.h16]) (by simp [Instr.w32])

theorem setChannel (ch : Byte) : Statement (.setChannel ch) := by
  rw [Statement, Opcode.mask_eq]
  exact of_fields _ _ _ _ _ _ _ (by simp [Instr.b8]) (by simp [Instr.h16]) (by simp [Instr.w32])

theorem updateChannel : Statement .updateChannel := by
  rw [Statement, Opcode.mask_eq]
  exact of_fields _ _ _ _ _ _ _ (by simp [Instr.b8]) (by simp [Instr.h16]) (by simp [Instr.w32])

theorem setTxPower (k : Byte) : Statement (.setTxPower k) := by
  rw [Statement, Opcode.mask_eq]
  exact of_fields _ _ _ _ _ _ _ (by simp [Instr.b8]) (by simp [Instr.h16]) (by simp [Instr.w32])

theorem updateTxPower : Statement .updateTxPower := by
  rw [Statement, Opcode.mask_eq]
  exact of_fields _ _ _ _ _ _ _ (by simp [Instr.b8]) (by simp [Instr.h16]) (by simp [Instr.w32])

end Sys2Proof.Laws.TableRow
end

