-- ==== Sys2Proof/Tests/Slice0.lean ====
section
/-! SUPPORT. Tests on small states. Expected results come from 95_test_vectors.md and the tables of the rules cited; the states that meet the hypotheses of the obligations, each clause at its boundary, stand in the second half. -/

namespace Sys2Proof.Tests

open Sys2Proof.Machine

/-! ### The test configuration TC of 95_test_vectors.md -/

/-- TC, with the values the spec fixes and a window at 0x40. -/
def tcRaw : RawParams :=
  { rolloverDefault := 100, ticksPerBackoff := 20, ticksPerSymbol := 1, ticksExpectedAtSfd := 12, flagWidth := 8,
    chMin := 11, chMax := 28, channelInit := 11, maxAtten := 3, txPowerTable := [0x5F, 0x3F, 0x1F, 0x0F],
    txPowerInit := 0x5F, windowBase := 0x40 }

def tc : Params := { tcRaw with wf := by decide }

/-- POR under TC with `gie` and no activity: where the programs of Part 3 start. -/
def st : State := State.por tc ⟨false, false, false, true⟩

/-- POR with the inputs named. -/
def io (rx tx dq : Bool) : State := State.por tc ⟨rx, tx, dq, true⟩

/-- A running clock at a count, in state `Rollover`. -/
def clk (count : Word) : Clock :=
  { st.clock with rollover := 100, compare := 100, count := count, cmpIe := true, clockInitialised := true }

/-- The block with a clock running at a count. -/
def at' (count : Word) : State := { st with clock := clk count }

/-- The block at a count in a compare state, with trigger 30. -/
def inState (cs : CompareState) (count compare : Word) : State :=
  { st with clock := { clk count with compareState := cs, compare := compare, trigger := 30, triggerWritten := true } }

/-- An arbiter's flags and receiver. -/
def withRx (s : State) (flags : Byte) (on : Bool) : State := { s with arbiter := ⟨flags, on, on⟩ }

/-- The next state, if there is one. -/
def nextOf : Answer → Option State
  | .next s => some s
  | _ => none

/-- A command issued by FG and run to its end (`@RUN`). -/
def ran (i : Instr) (s : State) : Option State := (nextOf (exec i s)).map (runRemaining maxMicros .fg)

/-- The clock's state and compare value. -/
def armed (s : State) : CompareState × Word := (s.clock.compareState, s.clock.compare)

/-- What the arbiter and the trace show. -/
def rxView (s : State) : Byte × Bool × List Event := (s.arbiter.enableFlags, s.arbiter.rxOn, s.out)

/-- What the radio parameters and the trace show. -/
def chView (s : State) : Byte × Byte × List Event := (s.radio.requestedChannel, s.radio.appliedChannel, s.out)

/-- What the power and the trace show. -/
def pwView (s : State) : Byte × Byte × List Event := (s.radio.requestedTxPower, s.radio.appliedTxPower, s.out)

/-! ### Decoding: words written out from R80 and R84 -/

theorem test_decode_clock :
    decode 0x0100000000000000 = .ok .init ∧ decode 0x0200000000000000 = .ok .reset ∧
    decode 0x0300000080000064 = .ok (.setRollover 0x80000064) ∧ decode 0x0400000000000061 = .ok (.setCount 97) ∧
    decode 0x0500000000000000 = .ok .getCount ∧ decode 0x0600000000000000 = .ok .getTrigger ∧
    decode 0x0700000000000003 = .ok (.setTrigger 3) ∧ decode 0x0800000000000000 = .ok .cancelTrigger ∧
    decode 0x09008001C0000002 = .ok (.realign 0xC0000002 0x8001) := by decide

theorem test_decode_arbiter :
    decode 0x1001000000000000 = .ok (.enable 1) ∧ decode 0x1104000000000000 = .ok (.softEnable 4) ∧
    decode 0x1280000000000000 = .ok (.disable 0x80) ∧ decode 0x1300000000000000 = .ok .hardDisable ∧
    decode 0x1400000000000000 = .ok .onRequest ∧ decode 0x1500000000000000 = .ok .offRequest ∧
    decode 0x1600000000000000 = .ok .radioOn ∧ decode 0x1700000000000000 = .ok .radioOff := by decide

theorem test_decode_radio :
    decode 0x200F000000000000 = .ok (.setChannel 15) ∧ decode 0x2100000000000000 = .ok .updateChannel ∧
    decode 0x22C8000000000000 = .ok (.setTxPower 200) ∧ decode 0x2300000000000000 = .ok .updateTxPower := by decide

/-- The Decode table of Part 2. -/
theorem test_decode_faults :
    decode 0x0000000000000000 = .error .illegalOpcode ∧ decode 0x0A00000000000000 = .error .illegalOpcode ∧
    decode 0xFF00000000000000 = .error .illegalOpcode ∧ decode 0x0100000000000001 = .error .reservedField ∧
    decode 0x1001000000000001 = .error .reservedField ∧ decode 0x0901000C00000002 = .error .reservedField := by decide

/-- The edges of the illegal ranges of R85. -/
theorem test_decode_illegal_edges :
    [0x00, 0x0A, 0x0F, 0x18, 0x1F, 0x24, 0xFF].map Opcode.ofByte = List.replicate 7 none := by decide

/-- Every row's `match` and `mask` of R84, by format. -/
theorem test_table_rows :
    Opcode.pattern .realign = 0x0900000000000000 ∧ Opcode.mask .realign = 0xFFFF000000000000 ∧
    Opcode.pattern .disable = 0x1200000000000000 ∧ Opcode.mask .disable = 0xFF00FFFFFFFFFFFF ∧
    Opcode.pattern .setCount = 0x0400000000000000 ∧ Opcode.mask .setCount = 0xFFFFFFFF00000000 ∧
    Opcode.pattern .updateTxPower = 0x2300000000000000 ∧ Opcode.mask .updateTxPower = 0xFFFFFFFFFFFFFFFF := by decide

/-- An opcode-table word placed for the next step is issued and run, from reset (P5 line 1). -/
theorem test_fetch_first_after_reset :
    (nextOf (step (State.reset.withFetchWord 64 0x1104000000000000))).map (·.arbiter.enableFlags) = some 0x04 := by
  decide

/-! ### Well-formedness: each check refuses a term that breaks it alone -/

theorem test_params_ill_formed :
    [{ tcRaw with rolloverDefault := 0 }, { tcRaw with ticksPerBackoff := 0, ticksExpectedAtSfd := 0 },
      { tcRaw with ticksPerSymbol := 0 }, { tcRaw with ticksExpectedAtSfd := 20 }, { tcRaw with flagWidth := 9 },
      { tcRaw with chMin := 10 }, { tcRaw with chMax := 26 }, { tcRaw with channelInit := 10 },
      { tcRaw with channelInit := 29 }, { tcRaw with maxAtten := 4 }, { tcRaw with windowBase := 0x44 }].map
      (fun p => (Params.ofRaw p).isSome) = List.replicate 11 false := by decide

theorem test_params_well_formed :
    (Params.ofRaw tcRaw).isSome = true ∧ (Params.ofRaw { tcRaw with channelInit := 28 }).isSome = true ∧
    (Params.ofRaw { tcRaw with ticksExpectedAtSfd := 19 }).isSome = true := by decide

/-- Missing, extra or too large immediates of each format are no command (R88). -/
theorem test_commands_ill_formed :
    ([⟨.init, [0]⟩, ⟨.enable, []⟩, ⟨.enable, [256]⟩, ⟨.enable, [1, 1]⟩, ⟨.setTrigger, [2 ^ 32]⟩,
      ⟨.setTrigger, []⟩, ⟨.realign, [3]⟩, ⟨.realign, [2 ^ 32, 0]⟩, ⟨.realign, [0, 2 ^ 16]⟩] : List RawCommand).map
      RawCommand.toInstr = List.replicate 9 none := by decide

/-- The largest immediate of each field is one. -/
theorem test_commands_well_formed :
    RawCommand.toInstr ⟨.enable, [255]⟩ = some (.enable 0xFF) ∧
    RawCommand.toInstr ⟨.setTrigger, [2 ^ 32 - 1]⟩ = some (.setTrigger 0xFFFFFFFF) ∧
    RawCommand.toInstr ⟨.realign, [98, 2 ^ 16 - 1]⟩ = some (.realign 98 0xFFFF) := by decide

/-- The lines of R88 and the words' lines of Part 3. -/
theorem test_assemble :
    assemble "REALIGN 98, 12" = .ok (some (.realign 98 12)) ∧ assemble "ENABLE 0x01 ; one" = .ok (some (.enable 1)) ∧
    assemble "INIT" = .ok (some .init) ∧ assemble "; nothing" = .ok none ∧
    assemble "SETCHANNEL 256" = .error .doesNotFit ∧ assemble "init" = .error .unknownMnemonic ∧
    assemble "REALIGN 98,12" = .error .badImmediate := by decide

/-! ### BackoffClock -/

/-- R105 under TC: rollover and compare at the default, count 0. -/
theorem test_init :
    (nextOf (exec .init (inState .trigger 7 30))).map (fun s => (armed s, s.clock.count, s.clock.cmpIe)) =
      some ((.rollover, 100), 0, true) := by decide

theorem test_reset_gie : (nextOf (exec .reset (at' 5))).map (·.fault) = some (some .resetIe) := by decide

theorem test_reset :
    (nextOf (exec .reset ((at' 5).drive .gie false))).map (fun s => (s.fault, s.clock.count, s.clock.cmpIe)) =
      some (none, 0, true) := by decide

/-- `count = 10`: 11 is accepted, in state Trigger too (R253), 10 is not. -/
theorem test_setRollover :
    (nextOf (exec (.setRollover 80) (inState .trigger 10 50))).map (fun s => (armed s, s.clock.rollover)) =
      some ((.trigger, 80), 80) := by decide

theorem test_setRollover_range :
    (nextOf (exec (.setRollover 10) (at' 10))).map (·.fault) = some (some .rolloverNotAboveCount) := by decide

theorem test_setCount : (nextOf (exec (.setCount 99) (at' 10))).map (·.clock.count) = some 99 := by decide

/-- In state Trigger with a value out of range the first check wins (R204). -/
theorem test_setCount_order :
    (nextOf (exec (.setCount 100) (inState .trigger 10 50))).map (·.fault) = some (some .setCountState) := by decide

theorem test_getCount : (nextOf (exec .getCount (at' 97))).map (·.result) = some 97 := by decide

theorem test_getTrigger : (nextOf (exec .getTrigger (inState .rollover 0 100))).map (·.result) = some 30 := by decide

theorem test_getTrigger_unwritten :
    (nextOf (exec .getTrigger (at' 0))).map (·.fault) = some (some .triggerUnwritten) := by decide

/-- The SETTRIGGER table of Part 2: count, trigger, what is armed. -/
theorem test_setTrigger :
    ([(10, 99), (10, 11), (10, 10), (10, 0), (0, 0), (0, 1), (99, 99), (100, 3)] : List (Word × Word)).map
      (fun x => (nextOf (exec (.setTrigger x.2) (at' x.1))).map armed) =
    [some (.trigger, 99), some (.trigger, 11), some (.rolloverAndArmTrigger, 100), some (.rolloverAndTrigger, 100),
      some (.rolloverAndTrigger, 100), some (.trigger, 1), some (.rolloverAndArmTrigger, 100),
      some (.rolloverAndArmTrigger, 100)] := by decide

theorem test_setTrigger_range :
    (nextOf (exec (.setTrigger 100) (at' 10))).map (·.fault) = some (some .triggerRange) := by decide

theorem test_cancelTrigger :
    (nextOf (exec .cancelTrigger (inState .rolloverAndArmTrigger 60 100))).map (fun s => (armed s, s.clock.trigger)) =
      some ((.rollover, 100), 30) := by decide

/-- Rows of the REALIGN table of Part 2: rollover, count, received count, received sub-tick. -/
theorem test_realign_arithmetic :
    ([(100, 10, 98, 12), (100, 10, 0, 5), (100, 10, 50, 12), (100, 10, 51, 12), (100, 1, 3, 12), (101, 10, 51, 12),
      (100, 0, 1, 0), (100, 10, 0xFFFFFFFF, 12), (100, 40, 98, 5)] : List (Word × Word × Word × Half)).map
      (fun x => realignCompute tc x.2.2.1 x.2.2.2 x.1 x.2.1) =
    [⟨-2, 0, 12⟩, ⟨-1, 13, 11⟩, ⟨50, 0, 60⟩, ⟨-49, 0, 59⟩, ⟨3, 0, 98⟩, ⟨-50, 0, 60⟩, ⟨0, 8, 0⟩,
      ⟨4294967195, 0, 15⟩, ⟨-3, 13, 43⟩] := by decide

/-- `REALIGN 98, 5` at count 40: count 43, 13 ticks held, the delta's 32 bits. -/
theorem test_realign :
    (ran (.realign 98 5) (at' 40)).map (fun s => (s.clock.count, s.clock.delayHold, s.result)) =
      some (43, 13, 0xFFFFFFFD) := by decide

/-! ### Ticks and the sequencer (Part 2) -/

theorem test_tick_match :
    (tickClock tc { clk 99 with subtick := 19 }) = { clk 100 with cmpPending := true } := by decide

theorem test_tick_no_match :
    (tickClock tc { clk 99 with subtick := 18 }) = { clk 99 with subtick := 19 } ∧
    (tickClock tc { clk 7 with subtick := 5, delayHold := 2 }) = { clk 7 with subtick := 5, delayHold := 1 } ∧
    (tickClock tc { clk 0xFFFFFFFF with subtick := 19 }) = clk 0 := by decide

theorem test_no_tick_before_init : nextOf (step (st.schedule .tick)) = none := by decide

/-- The four prior states, phase A: what is armed, the count and the trace. -/
theorem test_sequencer :
    [inState .rollover 103 100, inState .trigger 30 30, inState .rolloverAndTrigger 100 100,
      inState .rolloverAndArmTrigger 100 100].map
      (fun s => let t := takeCompareInterrupt s; (armed t, t.clock.count, t.out)) =
    [((.rollover, 100), 0, [.cbRollover]), ((.rollover, 100), 30, []), ((.rollover, 100), 0, [.cbRollover]),
      ((.trigger, 30), 0, [.cbRollover])] := by decide

theorem test_sequencer_phase_b :
    (returnFromInterrupt (takeCompareInterrupt (inState .trigger 30 30))).out = [.cbTrigger] := by decide

/-! ### RxTxArbiter (Part 2) -/

theorem test_enable : (ran (.enable 1) st).map rxView = some (1, true, [.hwRxOn]) := by decide

theorem test_enable_already_on : (ran (.enable 2) (withRx st 1 true)).map rxView = some (3, true, []) := by decide

theorem test_softEnable : (ran (.softEnable 4) (withRx st 1 false)).map rxView = some (5, false, []) := by decide

theorem test_disable :
    (ran (.disable 1) (withRx st 1 true)).map rxView =
      some (0, false, [.hwRxOff, .hwFlushRxFifo, .hwClearRxThresholdIrq]) := by decide

/-- Already off, it still flushes and clears. -/
theorem test_disable_off :
    (ran (.disable 0x80) st).map rxView = some (0, false, [.hwFlushRxFifo, .hwClearRxThresholdIrq]) := by decide

theorem test_hardDisable :
    (ran .hardDisable (withRx (io true false false) 3 true)).map rxView =
      some (0, false, [.hwRxOff, .cbRxHaltCleanup, .cbServiceTx]) := by decide

theorem test_onRequest : (ran .onRequest (withRx st 2 false)).map rxView = some (2, true, [.hwRxOn]) := by decide

theorem test_onRequest_no_flags : (ran .onRequest st).map rxView = some (0, false, []) := by decide

theorem test_offRequest_active :
    [io true false false, io false true false, io false true true].map
      (fun s => (ran .offRequest (withRx s 0 true)).map rxView) =
    [some (0, true, []), some (0, true, []),
      some (0, false, [.hwRxOff, .hwFlushRxFifo, .hwClearRxThresholdIrq])] := by decide

theorem test_offRequest_flags : (ran .offRequest (withRx st 1 true)).map rxView = some (1, true, []) := by decide

theorem test_radioOn : (ran .radioOn (withRx st 0 true)).map rxView = some (0, true, []) := by decide

theorem test_radioOff : (ran .radioOff (withRx st 1 true)).map rxView = some (1, false, [.hwRxOff]) := by decide

/-! ### RadioParameterScheduler (Part 2) -/

theorem test_setChannel :
    (ran (.setChannel 28) (withRx st 1 true)).map chView =
      some (28, 28, [.hwRxOff, .hwSetChannel 28, .hwRxOn]) := by decide

theorem test_setChannel_transmitting :
    (ran (.setChannel 15) (withRx (io false true false) 1 true)).map chView = some (15, 11, []) := by decide

theorem test_updateChannel :
    (ran .updateChannel { withRx st 0 true with radio := ⟨20, 11, 0x5F, 0x5F⟩ }).map chView =
      some (20, 20, [.hwRxOff, .hwSetChannel 20]) := by decide

theorem test_setTxPower :
    (ran (.setTxPower 200) st).map pwView = some (0x0F, 0x0F, [.hwSetTxPower 0x0F]) := by decide

theorem test_setTxPower_receiving :
    (ran (.setTxPower 2) (io true false false)).map pwView = some (0x1F, 0x5F, []) := by decide

theorem test_updateTxPower :
    (ran .updateTxPower { io false true false with radio := ⟨11, 11, 0x1F, 0x5F⟩ }).map pwView =
      some (0x1F, 0x1F, [.hwSetTxPower 0x1F]) := by decide

/-! ### The window (Part 2, P1, P7) -/

/-- Reads: RESULT; a 16-bit access, an offset 2 past a register, the end of the map; COUNT before INIT. -/
theorem test_window_reads :
    readWindow .fg 0x08 4 { st with result := 42 } = .ok 42 ∧ readWindow .fg 0x08 2 st = .error .badAccess ∧
    readWindow .fg 0x0A 4 st = .error .badAccess ∧ readWindow .fg 0x38 4 st = .error .badAccess ∧
    readWindow .fg 0x14 4 st = .error .notInitialised := by decide

theorem test_window_write_read_only :
    (nextOf (step (st.schedule (.access .fg (.write 0x14 4 0))))).map (·.fault) = some (some .badAccess) := by decide

/-- The STATUS words of the end states of P1 and P7. -/
theorem test_status_word :
    statusWord .fg { at' 3 with clock := { clk 3 with trigger := 3, triggerWritten := true } } = 0x000001C1 ∧
    statusWord .fg { st with fault := some .notInitialised } = 0x00050400 := by decide

/-! ### States that meet the hypotheses of the obligations, one theorem per obligation -/

/-- FG's `CMD_LO` holds 3. -/
def lo3 : State := st.latchLo .fg 3

/-- A running clock inside a backoff period. -/
def atSub (count : Word) (subtick : Half) : State :=
  { at' count with clock := { clk count with subtick := subtick } }

/-- FG has `REALIGN`'s two accesses left. -/
def realigning : State := (at' 40).setCont .fg [.realignDelay 0, .realignWrite 0 40]

/-- ENV_RADIO has a micro-step left. -/
def envBusy (m : MicroStep) : State := (at' 40).setCont .envRadio [m]

theorem test_hyps_EncodeOfDecode : decode 0x09008001C0000002 = .ok (.realign 0xC0000002 0x8001) := by decide

theorem test_hyps_StepRunsIssuedCommand :
    (lo3.fault = none ∧ mayAccess .fg (.write 0x04 4 0x07000000) lo3 = true ∧
      decode (joinHalves 0x07000000 (lo3.cmdLo .fg)) = .ok (.setTrigger 3)) ∧
    (st.fault = none ∧ mayAccess .envRadio (.write 0x04 4 0x14000000) st = true ∧
      decode (joinHalves 0x14000000 (st.cmdLo .envRadio)) = .ok .onRequest) ∧
    (st.fault = none ∧ fgFree st = true ∧ decodeTableWord 64 0x0700000000000003 = some (.setTrigger 3)) := by decide

theorem test_hyps_TwoWritesIssueTheWord :
    st.fault = none ∧ mayAccess .fg (.write 0x04 4 0x07000000) st = true ∧
    decode (joinHalves 0x07000000 3) = .ok (.setTrigger 3) := by decide

/-- Busy; an illegal opcode; a reserved field; the first and the last command the clock is needed for. -/
theorem test_hyps_IssueCheckOrder :
    (realigning.fault = none ∧ mayAccess .fg (.write 0x04 4 0) realigning = true ∧ realigning.cont .fg ≠ []) ∧
    (st.fault = none ∧ mayAccess .fg (.write 0x04 4 0x0A000000) st = true ∧ st.cont .fg = [] ∧
      decode (joinHalves 0x0A000000 (st.cmdLo .fg)) = .error .illegalOpcode) ∧
    (lo3.fault = none ∧ mayAccess .fg (.write 0x04 4 0x01000000) lo3 = true ∧ lo3.cont .fg = [] ∧
      decode (joinHalves 0x01000000 (lo3.cmdLo .fg)) = .error .reservedField) ∧
    (mayAccess .fg (.write 0x04 4 0x03000000) st = true ∧ mayAccess .fg (.write 0x04 4 0x09000000) st = true ∧
      st.clock.clockInitialised = false ∧ decode (joinHalves 0x03000000 (st.cmdLo .fg)) = .ok (.setRollover 0) ∧
      (0x03 : Byte) ≤ (Instr.setRollover 0).opcode.code ∧ (Instr.setRollover 0).opcode.code ≤ 0x09 ∧
      decode (joinHalves 0x09000000 (st.cmdLo .fg)) = .ok (.realign 0 0) ∧
      (0x03 : Byte) ≤ (Instr.realign 0 0).opcode.code ∧ (Instr.realign 0 0).opcode.code ≤ 0x09) := by decide

/-- Reads 2 wide, at 0x0A and at 0x38; writes 2 wide, at 0x08 and at 0x02. -/
theorem test_hyps_BadAccessFaults :
    st.fault = none ∧ mayAccess .fg (.read 0x08 2) st = true ∧ (2 ≠ 4 ∨ 0x08 % 4 ≠ 0 ∨ 0x38 ≤ 0x08) ∧
    mayAccess .fg (.read 0x0A 4) st = true ∧ (4 ≠ 4 ∨ 0x0A % 4 ≠ 0 ∨ 0x38 ≤ 0x0A) ∧
    mayAccess .fg (.read 0x38 4) st = true ∧ (4 ≠ 4 ∨ 0x38 % 4 ≠ 0 ∨ 0x38 ≤ 0x38) ∧
    mayAccess .fg (.write 0x04 2 0) st = true ∧ (2 ≠ 4 ∨ (0x04 ≠ 0x00 ∧ 0x04 ≠ 0x04)) ∧
    mayAccess .fg (.write 0x08 4 0) st = true ∧ (4 ≠ 4 ∨ (0x08 ≠ 0x00 ∧ 0x08 ≠ 0x04)) ∧
    mayAccess .fg (.write 0x02 4 0) st = true ∧ (4 ≠ 4 ∨ (0x02 ≠ 0x00 ∧ 0x02 ≠ 0x04)) := by decide

theorem test_hyps_WindowRegisterMap :
    (at' 3).clock.clockInitialised = true ∧ st.clock.clockInitialised = false ∧
    (inState .rollover 3 100).clock.triggerWritten = true ∧ (at' 3).clock.triggerWritten = false := by decide

theorem test_hyps_StatusFields : (st.raise .busy).fault = some .busy ∧ st.fault = none := by decide

/-- The lowest and the highest register of the map, and a read that faults. -/
theorem test_hyps_ReadsHaveNoSideEffect :
    st.fault = none ∧ mayAccess .fg (.read 0x00 4) st = true ∧ readWindow .fg 0x00 4 st = .ok 0 ∧
    mayAccess .envRadio (.read 0x34 4) st = true ∧ readWindow .envRadio 0x34 4 st = .ok 0 ∧
    mayAccess .fg (.read 0x14 4) st = true ∧ readWindow .fg 0x14 4 st = .error .notInitialised := by decide

theorem test_hyps_LatchesReadBack :
    st.fault = none ∧ mayAccess .fg (.write 0x00 4 3) st = true ∧
    ∃ t, step (st.schedule (.access .fg (.write 0x04 4 0x01000000))) = .next t ∧ t.fault = none :=
  ⟨by decide, by decide, ⟨_, rfl, by decide⟩⟩

theorem test_hyps_InitResult : Ready st := by decide

theorem test_hyps_ResetResult :
    Ready st ∧ st.inputs.gie = true ∧ Ready (st.drive .gie false) ∧ (st.drive .gie false).inputs.gie = false := by
  decide

theorem test_hyps_SetRolloverResult :
    Ready st ∧ st.clock.clockInitialised = false ∧ ClockReady (at' 10) ∧ (at' 10).clock.count.toNat < (11 : Word).toNat ∧
    (10 : Word).toNat ≤ (at' 10).clock.count.toNat := by decide

theorem test_hyps_SetCountResult :
    Ready st ∧ st.clock.clockInitialised = false ∧
    ClockReady (inState .trigger 10 50) ∧ (inState .trigger 10 50).clock.compareState ≠ .rollover ∧
    ClockReady (at' 10) ∧ (at' 10).clock.compareState = .rollover ∧
    (at' 10).clock.rollover.toNat ≤ (100 : Word).toNat ∧ (99 : Word).toNat < (at' 10).clock.rollover.toNat := by decide

theorem test_hyps_GetResults :
    Ready st ∧ st.clock.clockInitialised = false ∧
    ClockReady (inState .rollover 0 100) ∧ (inState .rollover 0 100).clock.triggerWritten = true ∧
    ClockReady (at' 0) ∧ (at' 0).clock.triggerWritten = false := by decide

/-- Triggers 100, 11, 0 and 10 at count 10 under rollover 100. -/
theorem test_hyps_SetTriggerResult :
    Ready st ∧ st.clock.clockInitialised = false ∧ ClockReady (at' 10) ∧ (at' 10).clock.rollover.toNat ≤ (100 : Word).toNat ∧
    ((11 : Word).toNat < (at' 10).clock.rollover.toNat ∧ (at' 10).clock.count.toNat < (11 : Word).toNat) ∧
    (0 : Word).toNat < (at' 10).clock.rollover.toNat ∧
    ((10 : Word).toNat < (at' 10).clock.rollover.toNat ∧ 0 < (10 : Word).toNat ∧
      (10 : Word).toNat ≤ (at' 10).clock.count.toNat) := by decide

theorem test_hyps_CancelTriggerResult :
    Ready st ∧ st.clock.clockInitialised = false ∧ ClockReady (inState .rolloverAndArmTrigger 60 100) := by decide

/-- Sub-ticks 12 and 11 against the expected 12; counts 50 and 51 against half of 100; the smallest rollover. -/
theorem test_hyps_RealignArithmetic :
    0 < (1 : Word).toNat ∧ 0 < (100 : Word).toNat ∧ tc.ticksExpectedAtSfd.toNat ≤ (12 : Half).toNat ∧
    (11 : Half).toNat < tc.ticksExpectedAtSfd.toNat ∧ (50 : Word).toNat ≤ (100 : Word).toNat / 2 ∧
    (100 : Word).toNat / 2 < (51 : Word).toNat := by decide

theorem test_hyps_RealignResult :
    Ready st ∧ st.clock.clockInitialised = false ∧
    ClockReady (at' 10) ∧ (at' 10).inputs.txActive = false ∧ ClockReady ((at' 10).drive .txActive true) ∧
    ((at' 10).drive .txActive true).inputs.txActive = true := by decide

theorem test_hyps_TimerTickResult :
    (st.fault = none ∧ st.clock.clockInitialised = false) ∧
    ((forceDelay 1 (at' 7)).fault = none ∧ (forceDelay 1 (at' 7)).clock.clockInitialised = true ∧
      0 < (forceDelay 1 (at' 7)).clock.delayHold) ∧
    ((at' 7).fault = none ∧ (at' 7).clock.clockInitialised = true ∧ (at' 7).clock.delayHold = 0 ∧
      (at' 7).clock.subtick + 1 ≠ (at' 7).cfg.ticksPerBackoff) ∧
    (let s := atSub 98 19;
      s.fault = none ∧ s.clock.clockInitialised = true ∧ s.clock.delayHold = 0 ∧
      s.clock.subtick + 1 = s.cfg.ticksPerBackoff ∧ s.clock.count + 1 ≠ s.clock.compare) ∧
    (let s := atSub 99 19;
      s.fault = none ∧ s.clock.clockInitialised = true ∧ s.clock.delayHold = 0 ∧
      s.clock.subtick + 1 = s.cfg.ticksPerBackoff ∧ s.clock.count + 1 = s.clock.compare) := by decide

theorem test_hyps_TicksCountBackoffPeriods :
    13 ≤ (forceDelay 13 (at' 43)).clock.delayHold ∧ (forceDelay 13 (at' 43)).clock.subtick = 0 := by decide

theorem test_hyps_SequencerOutcomes :
    (inState .rollover 100 100).clock.compareState = .rollover ∧
    (inState .trigger 30 30).clock.compareState = .trigger ∧
    (inState .rolloverAndTrigger 100 100).clock.compareState = .rolloverAndTrigger ∧
    (inState .rolloverAndArmTrigger 100 100).clock.compareState = .rolloverAndArmTrigger := by decide

/-- ENV_RADIO has a micro-step left, a channel and a power requested and not applied. -/
def reqRadio (m : MicroStep) : State := { envBusy m with radio := ⟨20, 11, 0x1F, 0x5F⟩ }

/-- A match is pending at a count in a compare state. -/
def pend (cs : CompareState) (count compare : Word) : State :=
  { inState cs count compare with clock := { (inState cs count compare).clock with cmpPending := true } }

theorem test_hyps_SequencerDispatch :
    (let s := takeCompareInterrupt (pend .trigger 30 30);
      s.fault = none ∧ s.conts.isrCmp = [] ∧ s.clock.isrPhase = .triggerCallbackDue) ∧
    (let s := pend .trigger 30 30;
      s.fault = none ∧ s.conts.isrCmp = [] ∧ s.clock.isrPhase = .idle ∧ s.clock.clockInitialised = true ∧
      s.clock.cmpPending = true ∧ s.clock.cmpIe = true ∧ s.inputs.gie = true) ∧
    (st.fault = none ∧ st.conts.isrCmp = [] ∧ st.clock.isrPhase = .idle ∧ st.clock.clockInitialised = false) ∧
    ((at' 3).clock.isrPhase = .idle ∧ (at' 3).clock.cmpPending = false) ∧
    (((pend .trigger 30 30).drive .gie false).clock.isrPhase = .idle ∧
      ((pend .trigger 30 30).drive .gie false).inputs.gie = false) := by decide

/-- W11: rollover 100, count 97, trigger 30 armed for the next cycle. -/
theorem test_hyps_ArmedTriggerFiresNextCycle :
    let s := inState .rolloverAndArmTrigger 97 100
    s.clock.compareState = .rolloverAndArmTrigger ∧ s.clock.compare = s.clock.rollover ∧
    s.clock.count < s.clock.rollover ∧ 0 < s.clock.trigger ∧ s.clock.cmpPending = false ∧ s.clock.subtick = 0 ∧
    s.clock.delayHold = 0 := by decide

theorem test_hyps_EnableResults : Ready st ∧ (0 : Byte) = 0 ∧ (1 : Byte) ≠ 0 := by decide

theorem test_hyps_DisableResult : Ready (withRx st 1 true) ∧ (0 : Byte) = 0 ∧ (0x80 : Byte) ≠ 0 := by decide

theorem test_hyps_HardDisableResult : Ready (withRx (io true true false) 3 true) := by decide

theorem test_hyps_RequestResults : Ready st ∧ Ready (withRx st 2 false) := by decide

theorem test_hyps_RadioOnOffResults :
    Ready (withRx st 0 true) ∧ (withRx st 0 true).arbiter.rxOn = true ∧ Ready st ∧ st.arbiter.rxOn = false := by decide

/-- P4: the count of step 1 is written after a rollover; and R256: the flags were set between the steps. -/
theorem test_hyps_RacesAreKept :
    (ClockReady (at' 99) ∧ (at' 99).inputs.txActive = false ∧
      ((at' 0).setCont .fg [.realignWrite 2 97]).cont (at' 99).issuer = [.realignWrite 2 97] ∧
      (realignCompute tc 2 12 100 99).newCount = 97) ∧
    (let u := (withRx st 1 true).setCont .fg [.offRequest2];
      u.cont .fg = [.offRequest2] ∧ u.inputs.rxActive = false ∧
      (u.inputs.txActive = false ∨ u.inputs.txFrameAlreadyDequeued = true) ∧ u.arbiter.rxOn = true) := by decide

/-- Channels 10, 11, 28 and 29, with and without a transmit. -/
theorem test_hyps_SetChannelResult :
    Ready st ∧ ((10 : Byte).toNat < 11 ∨ 28 < (10 : Byte).toNat) ∧ ((29 : Byte).toNat < 11 ∨ 28 < (29 : Byte).toNat) ∧
    (11 ≤ (11 : Byte).toNat ∧ (11 : Byte).toNat ≤ 28) ∧ (11 ≤ (28 : Byte).toNat ∧ (28 : Byte).toNat ≤ 28) ∧
    st.inputs.txActive = false ∧ Ready (io false true false) ∧ (io false true false).inputs.txActive = true := by decide

theorem test_hyps_UpdateChannelResult :
    Ready st ∧ st.radio.requestedChannel = st.radio.appliedChannel ∧
    Ready (reqRadio .radioOn) ∧
    (reqRadio .radioOn).radio.requestedChannel ≠ (reqRadio .radioOn).radio.appliedChannel ∧
    (envBusy .updateChannel1).cont .envRadio = [.updateChannel1] ∧
    (envBusy .updateChannel1).radio.requestedChannel = (envBusy .updateChannel1).radio.appliedChannel ∧
    (reqRadio .updateChannel1).cont .envRadio = [.updateChannel1] ∧
    (reqRadio .updateChannel1).radio.requestedChannel ≠ (reqRadio .updateChannel1).radio.appliedChannel ∧
    ((reqRadio (.writeChannel 15)).cont .envRadio = [.writeChannel 15] ∧
      (reqRadio (.writeChannel 15)).radio.requestedChannel ≠ 15) := by decide

theorem test_hyps_SetTxPowerResult :
    Ready st ∧ st.inputs.rxActive = false ∧ st.inputs.txActive = false ∧ Ready (io true false false) ∧
    (io true false false).inputs.rxActive = true ∧ Ready (io false true false) ∧
    (io false true false).inputs.txActive = true := by decide

theorem test_hyps_UpdateTxPowerResult :
    Ready st ∧ st.radio.requestedTxPower = st.radio.appliedTxPower ∧
    Ready (reqRadio .radioOn) ∧
    (reqRadio .radioOn).radio.requestedTxPower ≠ (reqRadio .radioOn).radio.appliedTxPower := by decide

theorem test_hyps_IllFormedConfigurationRefused :
    (Params.ofRaw tcRaw).map (·.toRawParams) = some tcRaw := by decide

theorem test_hyps_FaultsArePrecise :
    ∃ t, lo3.fault = none ∧ step (lo3.schedule (.access .fg (.write 0x04 4 0x07000000))) = .next t ∧
      t.fault = some .notInitialised :=
  ⟨_, by decide, rfl, by decide⟩

theorem test_hyps_FaultedBlockIsHalted :
    ((st.raise .busy).schedule (.access .fg (.read 0x0C 4))).fault = some .busy ∧
    nextStimulus ((st.raise .busy).schedule (.access .fg (.read 0x0C 4))) = .access .fg (.read 0x0C 4) ∧
    (∀ a : Caller, nextStimulus ((st.raise .busy).schedule .tick) ≠ .access a (.read 0x0C 4)) := by
  refine ⟨by decide, by decide, ?_⟩
  intro a
  cases a <;> decide

/-- Each way a handler is in progress; interrupts disabled; a micro-step of each caller. -/
theorem test_hyps_PreemptionRules :
    (takeCompareInterrupt (pend .trigger 30 30)).fault = none ∧
    (takeCompareInterrupt (pend .trigger 30 30)).clock.isrPhase ≠ .idle ∧
    (envBusy .radioOn).fault = none ∧ (envBusy .radioOn).cont .envRadio = [.radioOn] ∧
    (st.setCont .isrCmp [.radioOn]).cont .isrCmp ≠ [] ∧
    ((st.drive .gie false).inputs.gie = false ∧ (st.drive .gie false).cont .envRadio = []) ∧
    (realigning.fault = none ∧ realigning.clock.isrPhase = .idle ∧ realigning.cont .envRadio = [] ∧
      realigning.cont .isrCmp = [] ∧ realigning.cont .fg = [.realignDelay 0, .realignWrite 0 40]) := by decide

theorem test_hyps_StepKeepsReceiverInv :
    ∃ t, ReceiverInv (envBusy .radioOn) ∧ step ((envBusy .radioOn).schedule (.micro .envRadio)) = .next t :=
  ⟨_, by decide, rfl⟩

theorem test_hyps_StepKeepsClockInv :
    ∃ t, ClockInv (pend .rolloverAndArmTrigger 100 100) ∧
      step ((pend .rolloverAndArmTrigger 100 100).schedule .isr) = .next t :=
  ⟨_, by decide, rfl⟩

theorem test_hyps_StepKeepsQuietInv :
    ∃ t, QuietInv lo3 ∧ step (lo3.schedule (.access .fg (.write 0x04 4 0x07000000))) = .next t :=
  ⟨_, by decide, rfl⟩

theorem test_hyps_StepKeepsContInv : ∃ t, ContInv realigning ∧ step (realigning.schedule (.micro .fg)) = .next t :=
  ⟨_, by decide, rfl⟩

/-- A channel about to be written. -/
theorem test_hyps_StepKeepsChannelInv :
    ∃ t, ChannelInv (envBusy (.writeChannel 28)) ∧
      step ((envBusy (.writeChannel 28)).schedule (.micro .envRadio)) = .next t := by
  refine ⟨_, ⟨by decide, by decide, ?_, ?_⟩, rfl⟩
  · intro a ch h
    cases a <;> simp [envBusy, at', st, State.por, State.cont, State.setCont, Conts.put] at h
    subst h
    decide
  · intro ch h
    simp [envBusy, at', st, State.por, State.setCont] at h

/-- A requested power about to be applied. -/
theorem test_hyps_StepKeepsPowerInv :
    ∃ t, PowerInv (envBusy .updateTxPower) ∧
      step ((envBusy .updateTxPower).schedule (.micro .envRadio)) = .next t := by
  refine ⟨_, ⟨by decide, by decide, ?_⟩, rfl⟩
  intro v h
  simp [envBusy, at', st, State.por, State.setCont] at h

theorem test_hyps_InputsOnlyDrivenTraceOnlyGrows :
    (∃ t, step (st.schedule (.drive .rxActive true)) = .next t ∧ t.inputs ≠ st.inputs ∧
      nextStimulus (st.schedule (.drive .rxActive true)) = .drive .rxActive true) ∧
    (∃ t, step (st.schedule (.drive .txActive true)) = .next t ∧
      nextStimulus (st.schedule (.drive .txActive true)) = .drive .txActive true) ∧
    (∃ t, step (st.schedule (.drive .txFrameAlreadyDequeued true)) = .next t ∧
      nextStimulus (st.schedule (.drive .txFrameAlreadyDequeued true)) = .drive .txFrameAlreadyDequeued true) ∧
    (∃ t, step (st.schedule (.drive .gie false)) = .next t ∧
      nextStimulus (st.schedule (.drive .gie false)) = .drive .gie false) :=
  ⟨⟨_, rfl, by decide, rfl⟩, ⟨_, rfl, rfl⟩, ⟨_, rfl, rfl⟩, ⟨_, rfl, rfl⟩⟩

theorem test_hyps_MatchOnlyOnIncrement :
    ∃ t, step ((atSub 99 19).schedule .tick) = .next t ∧
      (atSub 99 19).clock.cmpPending = false ∧ t.clock.cmpPending = true := ⟨_, rfl, by decide, by decide⟩

theorem test_hyps_CompareStateWriters :
    ∃ t, step ((pend .rolloverAndArmTrigger 100 100).schedule .isr) = .next t ∧
      t.clock.compareState ≠ .rolloverAndArmTrigger := ⟨_, rfl, by decide⟩

/-- FG has latched `lo` and writes `hi` next. -/
def writesHi (s : State) (lo hi : Word) : State := (s.latchLo .fg lo).schedule (.access .fg (.write 0x04 4 hi))

/-- Each register is changed by some step: the rollover, the count, the trigger, the initialised flag. -/
theorem test_hyps_ClockRegisterWriters :
    (∃ t, step (writesHi (at' 10) 11 0x03000000) = .next t ∧ t.clock.rollover ≠ (at' 10).clock.rollover) ∧
    (∃ t, step (writesHi (at' 10) 99 0x04000000) = .next t ∧ t.clock.count ≠ (at' 10).clock.count) ∧
    (∃ t, step (writesHi (at' 10) 3 0x07000000) = .next t ∧ t.clock.trigger ≠ (at' 10).clock.trigger) ∧
    (∃ t, step (writesHi st 0 0x01000000) = .next t ∧ t.clock.clockInitialised ≠ st.clock.clockInitialised) :=
  ⟨⟨_, rfl, by decide⟩, ⟨_, rfl, by decide⟩, ⟨_, rfl, by decide⟩, ⟨_, rfl, by decide⟩⟩

theorem test_hyps_ResultAndFlagWriters :
    (∃ t, step (writesHi (at' 10) 0 0x05000000) = .next t ∧ t.result ≠ (at' 10).result) ∧
    (∃ t, step (writesHi st 0 0x11040000) = .next t ∧ t.arbiter.enableFlags ≠ st.arbiter.enableFlags) :=
  ⟨⟨_, rfl, by decide⟩, ⟨_, rfl, by decide⟩⟩

/-- A request of each kind, and each applied copy written by a micro-step of ENV_RADIO. -/
theorem test_hyps_AppliedOnlyInsideUpdate :
    (∃ t, step (writesHi st 0 0x200F0000) = .next t ∧ t.radio.requestedChannel ≠ st.radio.requestedChannel) ∧
    (∃ t, step ((reqRadio .updateChannel1).schedule (.micro .envRadio)) = .next t ∧
      t.radio.appliedChannel ≠ 11) ∧
    (∃ t, step (writesHi st 0 0x22010000) = .next t ∧ t.radio.requestedTxPower ≠ st.radio.requestedTxPower) ∧
    (∃ t, step ((reqRadio .updateTxPower).schedule (.micro .envRadio)) = .next t ∧
      t.radio.appliedTxPower ≠ 0x5F) :=
  ⟨⟨_, rfl, by decide⟩, ⟨_, rfl, by decide⟩, ⟨_, rfl, by decide⟩, ⟨_, rfl, by decide⟩⟩

theorem test_hyps_ReceiverGoesOffOnlyWhenAllowed :
    (∃ t, step (((withRx st 0 true).setCont .fg [.offRequest2]).schedule (.micro .fg)) = .next t ∧
      (withRx st 0 true).arbiter.rxOn = true ∧ t.arbiter.rxOn = false) ∧
    (∃ t, step ((envBusy .radioOn).schedule (.micro .envRadio)) = .next t ∧
      (envBusy .radioOn).arbiter.rxOn = false ∧ t.arbiter.rxOn = true) ∧
    (∃ t, step (writesHi st 0 0x13000000) = .next t ∧ MicroStep.radioOff ∈ t.cont .fg) ∧
    (∃ t, step (writesHi st 0 0x10010000) = .next t ∧ MicroStep.radioOn ∈ t.cont .fg) :=
  ⟨⟨_, rfl, by decide, by decide⟩, ⟨_, rfl, by decide, by decide⟩, ⟨_, rfl, by decide⟩, ⟨_, rfl, by decide⟩⟩

/-- A step of FG: the others keep what they have, and ENV_RADIO its latches. -/
theorem test_hyps_AgentsKeepTheirOwn :
    ∃ t, step (writesHi st 3 0x07000000) = .next t ∧
      Agent.envRadio ≠ stimulusAgent (nextStimulus (writesHi st 3 0x07000000)) ∧
      Caller.envRadio.agent ≠ stimulusAgent (nextStimulus (writesHi st 3 0x07000000)) :=
  ⟨_, rfl, by decide, by decide⟩

/-- Two power-on states that differ in a count and a trigger nothing has written. -/
theorem test_hyps_PowerOnValuesInvisible :
    let s := { st with clock := { st.clock with count := 7, trigger := 9 } }
    ClockInv st ∧ ClockInv s ∧ visible st = visible s ∧ st ≠ s := by decide

theorem test_hyps_RolloverCallbackFirst :
    ∃ t, (pend .rolloverAndTrigger 100 100).fault = none ∧ (pend .rolloverAndTrigger 100 100).conts.isrCmp = [] ∧
      (pend .rolloverAndTrigger 100 100).clock.isrPhase = .idle ∧
      (pend .rolloverAndTrigger 100 100).clock.compareState = .rolloverAndTrigger ∧
      step ((pend .rolloverAndTrigger 100 100).schedule .isr) = .next t :=
  ⟨_, by decide, by decide, by decide, by decide, rfl⟩

/-- A command read from its numbers; a line whose number fits, and one whose number does not. -/
theorem test_hyps_StatedCommandsAreRead :
    RawCommand.toInstr ⟨.enable, [255]⟩ = some (.enable 0xFF) ∧
    (codePart "ENABLE 255".toList ≠ [] ∧
      opcodeNamed ((codePart "ENABLE 255".toList).takeWhile (· != ' ')) = some .enable ∧
      immediatesOf ((codePart "ENABLE 255".toList).dropWhile (· != ' ')) = some [255]) ∧
    (codePart "ENABLE 256".toList ≠ [] ∧
      opcodeNamed ((codePart "ENABLE 256".toList).takeWhile (· != ' ')) = some .enable ∧
      immediatesOf ((codePart "ENABLE 256".toList).dropWhile (· != ' ')) = some [256] ∧
      RawCommand.toInstr ⟨.enable, [256]⟩ = none) := by decide

end Sys2Proof.Tests
end

section
/-! PROOFS. Scope (00_scope.md): which configurations are accepted (R7, R60), and what no step writes: the parameters, the inputs but by their drive, the events already in the trace (R38, R42, R45). -/

namespace Sys2Proof

/-! ### Accepting a configuration -/

/-- Acceptance is the check itself. -/
theorem Params.isSome_ofRaw_iff (p : RawParams) : (Params.ofRaw p).isSome = true ↔ p.wellFormed = true := by
  unfold Params.ofRaw
  split <;> simp [*]

/-- The check in the numbers R7 states: the register widths and `P_CH_MIN`, `P_CH_MAX` resolved. -/
theorem RawParams.wellFormed_iff_toNat (p : RawParams) :
    p.wellFormed = true ↔
      0 < p.rolloverDefault.toNat ∧ 0 < p.ticksPerBackoff.toNat ∧ 0 < p.ticksPerSymbol.toNat ∧
      p.ticksExpectedAtSfd.toNat < p.ticksPerBackoff.toNat ∧ p.flagWidth = 8 ∧ p.chMin = 11 ∧ p.chMax = 28 ∧
      11 ≤ p.channelInit.toNat ∧ p.channelInit.toNat ≤ 28 ∧
      p.txPowerTable.length = p.maxAtten.toNat + 1 ∧ 64 ∣ p.windowBase := by
  have channelRange (hmin : p.chMin = 11) (hmax : p.chMax = 28) :
      (p.chMin ≤ p.channelInit ∧ p.channelInit ≤ p.chMax) ↔
        11 ≤ p.channelInit.toNat ∧ p.channelInit.toNat ≤ 28 := by
    simp [hmin, hmax, BitVec.le_def]
  rw [RawParams.wellFormed_iff, Nat.dvd_iff_mod_eq_zero]
  simp only [BitVec.lt_def]
  constructor
  · rintro ⟨hroll, hback, hsym, hsfd, hwidth, hmin, hmax, hch, htable, hbase⟩
    obtain ⟨hlo, hhi⟩ := (channelRange hmin hmax).1 hch
    exact ⟨hroll, hback, hsym, hsfd, hwidth, hmin, hmax, hlo, hhi, htable, hbase⟩
  · rintro ⟨hroll, hback, hsym, hsfd, hwidth, hmin, hmax, hlo, hhi, htable, hbase⟩
    exact ⟨hroll, hback, hsym, hsfd, hwidth, hmin, hmax, (channelRange hmin hmax).2 ⟨hlo, hhi⟩, htable, hbase⟩

/-- Settles O39: acceptance is the check of R7, and `Params.ofRaw` keeps what it accepts. -/
theorem illFormedConfigurationRefused : Obligations.IllFormedConfigurationRefused := by
  intro p
  exact ⟨(Params.isSome_ofRaw_iff p).trans p.wellFormed_iff_toNat, fun q => (Params.ofRaw_eq_some p q).1⟩

namespace Machine

/-! ### The trace only grows -/

/-- RadioOnBody appends to the trace (R140). -/
theorem radioOnBody_out_prefix (s : State) : s.out <+: (radioOnBody s).out := by
  unfold radioOnBody
  split
  · exact List.prefix_rfl
  · exact List.prefix_append _ _

/-- RadioOffBody appends to the trace (R141). -/
theorem radioOffBody_out_prefix (s : State) : s.out <+: (radioOffBody s).out := by
  unfold radioOffBody
  split
  · exact List.prefix_append _ _
  · exact List.prefix_rfl

/-- OffRequestStep1 emits nothing (R142). -/
@[simp] theorem offRequestStep1_out (a : Agent) (rest : List MicroStep) (s : State) :
    (offRequestStep1 a rest s).out = s.out := by
  unfold offRequestStep1
  split <;> rfl

/-- OffRequestStep2 appends to the trace (R142). -/
theorem offRequestStep2_out_prefix (a : Agent) (rest : List MicroStep) (s : State) :
    s.out <+: (offRequestStep2 a rest s).out := by
  unfold offRequestStep2
  split
  · have h := radioOffBody_out_prefix s
    exact (h.trans (List.prefix_append _ _)).trans (List.prefix_append _ _)
  · exact List.prefix_rfl

/-- Step 1 of `ONREQUEST` emits nothing (R154). -/
@[simp] theorem onRequestStep1_out (a : Agent) (s : State) : (onRequestStep1 a s).out = s.out := by
  unfold onRequestStep1
  split <;> rfl

/-- `UPDATECHANNEL` step 1 emits nothing; the call is step 3's (R176). -/
@[simp] theorem updateChannelStep1_out (a : Agent) (s : State) : (updateChannelStep1 a s).out = s.out := by
  unfold updateChannelStep1
  split <;> rfl

/-- `UPDATETXPOWER` appends to the trace (R178). -/
theorem updateTxPowerStep_out_prefix (a : Agent) (s : State) : s.out <+: (updateTxPowerStep a s).out := by
  unfold updateTxPowerStep
  split
  · exact List.prefix_append _ _
  · exact List.prefix_rfl

/-- The commands that call outward in their first step: `RADIOON`, `RADIOOFF` and `UPDATETXPOWER`. -/
def emitsAtIssue : Instr → Bool
  | .radioOn | .radioOff | .updateTxPower => true
  | _ => false

/-- Every other command's body leaves the trace as it is. -/
theorem bodyOf_out_of_silent {i : Instr} (h : emitsAtIssue i = false) (s : State) : (bodyOf i s).out = s.out := by
  cases i with
  | radioOn | radioOff | updateTxPower => cases h
  | onRequest => exact onRequestStep1_out _ s
  | offRequest => exact offRequestStep1_out _ _ s
  | updateChannel => exact updateChannelStep1_out _ s
  | init | getCount | cancelTrigger | hardDisable | setTxPower => rfl
  | reset => dsimp only [bodyOf, resetBody]; split <;> rfl
  | setRollover => dsimp only [bodyOf, setRolloverBody]; split <;> rfl
  | setCount => dsimp only [bodyOf, setCountBody]; (repeat' split) <;> rfl
  | getTrigger => dsimp only [bodyOf, getTriggerBody]; split <;> rfl
  | setTrigger => dsimp only [bodyOf, setTriggerBody]; split <;> rfl
  | realign => dsimp only [bodyOf, realignBody]; split <;> rfl
  | enable => dsimp only [bodyOf, enableBody]; split <;> rfl
  | softEnable => dsimp only [bodyOf, softEnableBody]; split <;> rfl
  | disable => dsimp only [bodyOf, disableBody]; split <;> rfl
  | setChannel => dsimp only [bodyOf, setChannelBody]; split <;> rfl

/-- A command's body appends to the trace (R45). -/
theorem bodyOf_out_prefix (i : Instr) (s : State) : s.out <+: (bodyOf i s).out := by
  cases i with
  | radioOn => exact radioOnBody_out_prefix s
  | radioOff => exact radioOffBody_out_prefix s
  | updateTxPower => exact updateTxPowerStep_out_prefix _ s
  | _ => rw [bodyOf_out_of_silent rfl]

/-- A micro-step appends to the trace (R45). -/
theorem runMicro_out_prefix (m : MicroStep) (a : Agent) (rest : List MicroStep) (s : State) :
    s.out <+: (runMicro m a rest s).out := by
  cases m with
  | radioOn => exact radioOnBody_out_prefix s
  | radioOff => exact radioOffBody_out_prefix s
  | offRequest2 => exact offRequestStep2_out_prefix a rest s
  | updateTxPower => exact updateTxPowerStep_out_prefix a s
  | haltCleanup | serviceTx | writeChannel => exact List.prefix_append _ _
  | offRequest1 => simp [runMicro]
  | onRequest1 => simp [runMicro]
  | updateChannel1 => simp [runMicro]
  | realignDelay | realignWrite | setChannel2 | setTxPower2 => exact List.prefix_rfl

/-- Phase A emits the rollover callback where the compare state has the rollover, and nothing else (R121). -/
theorem takeCompareInterrupt_out (s : State) :
    (takeCompareInterrupt s).out = s.out ++ if s.clock.compareState.hasRollover then [.cbRollover] else [] := by
  cases h : s.clock.compareState <;>
    simp [takeCompareInterrupt, h, CompareState.hasRollover, CompareState.hasTrigger, rolloverStage, triggerStage,
      armStage]

/-- Every step appends to the trace. -/
theorem StepCase.out_prefix {s t : State} (h : StepCase s t) : s.out <+: t.out := by
  cases h with
  | issue c hi i => simpa using bodyOf_out_prefix i ((consume s).asCaller c)
  | micro a m rest => simpa using runMicro_out_prefix m a rest (consume s)
  | phaseA => simp [takeCompareInterrupt_out]
  | phaseB => simp [returnFromInterrupt]
  | tick => simp [timerTick]
  | _ => simp

/-! ### Parameters and inputs -/

/-- Phase A writes no parameter. -/
@[simp] theorem takeCompareInterrupt_cfg (s : State) : (takeCompareInterrupt s).cfg = s.cfg := by
  rw [takeCompareInterrupt_frame]

/-- Phase A writes no input. -/
@[simp] theorem takeCompareInterrupt_inputs (s : State) : (takeCompareInterrupt s).inputs = s.inputs := by
  rw [takeCompareInterrupt_frame]

/-- No step writes the parameters (R7). -/
theorem StepCase.cfg_eq {s t : State} (h : StepCase s t) : t.cfg = s.cfg := by
  cases h with
  | issue c hi i => simp [(bodyOf_surroundings i _).cfg]
  | micro a m rest => simp [(runMicro_surroundings m a rest _).cfg]
  | phaseB => simp [returnFromInterrupt]
  | tick => simp [timerTick]
  | _ => simp

/-- A step leaves the inputs, unless it is the drive of one (R38, R42). -/
theorem StepCase.inputs_eq_or_drive {s t : State} (h : StepCase s t) :
    t.inputs = s.inputs ∨ ∃ i v, nextStimulus s = .drive i v := by
  cases h with
  | drive i v _ hn => exact .inr ⟨i, v, hn⟩
  | issue c hi i => simp [(bodyOf_surroundings i _).inputs]
  | micro a m rest => simp [(runMicro_surroundings m a rest _).inputs]
  | phaseB => simp [returnFromInterrupt]
  | tick => simp [timerTick]
  | _ => simp

/-- A drive that is taken is the input's change; a halted block takes none (R38, R42, R43). -/
theorem step_of_drive {s t : State} {i : InputLine} {v : Bool} (hn : nextStimulus s = .drive i v)
    (h : step s = .next t) : t = (consume s).drive i v := by
  unfold step runStep at h
  rw [hn] at h
  cases hf : s.fault with
  | some c => simp [hf, haltedStep, inspects] at h
  | none => simpa [hf, runStimulus, eq_comm] using h

/-- After a taken drive the inputs are those before it with that line driven. -/
theorem inputs_of_drive {s t : State} {i : InputLine} {v : Bool} (h : step s = .next t)
    (hn : nextStimulus s = .drive i v) : t.inputs = (s.drive i v).inputs := by
  rw [step_of_drive hn h]
  cases i <;> simp [State.drive]

/-- Settles O50: a case analysis of the step for the trace, the parameters and who writes an input; a taken drive is
`State.drive` for what each line becomes. -/
theorem inputsOnlyDrivenTraceOnlyGrows : Obligations.InputsOnlyDrivenTraceOnlyGrows := by
  intro s t h
  have hcase := step_cases h
  exact ⟨hcase.cfg_eq, hcase.out_prefix, hcase.inputs_eq_or_drive.resolve_left,
    fun _ => inputs_of_drive h, fun _ => inputs_of_drive h, fun _ => inputs_of_drive h, fun _ => inputs_of_drive h⟩

end Machine

end Sys2Proof
end

section
/-! PROOFS. What a command's body and a micro-step can do, once: `bodyOf_cases` and `runMicro_cases` give their shapes, and the frame of the sequencer and of a tick. Rules about a register are proved by cases on the shape. -/

namespace Sys2Proof.Machine

/-! ### What a command's body can do -/

/-- The micro-steps a command can leave to run when it is issued (R115, R150 to R155, R175 to R177). -/
def leavesAtIssue : Instr → MicroStep → Bool
  | .realign _ _, .realignDelay _ | .realign _ _, .realignWrite _ _ => true
  | .enable _, .radioOn | .onRequest, .radioOn => true
  | .disable _, .offRequest1 | .offRequest, .offRequest2 => true
  | .hardDisable, .radioOff | .hardDisable, .haltCleanup | .hardDisable, .serviceTx => true
  | .setChannel _, .setChannel2 | .setTxPower _, .setTxPower2 => true
  | .updateChannel, .radioOff | .updateChannel, .writeChannel _ | .updateChannel, .onRequest1 => true
  | _, _ => false

/-- The micro-steps a micro-step can leave to run, beside those behind it (R142, R154, R175 to R177). -/
def leavesNext : MicroStep → MicroStep → Bool
  | .offRequest1, .offRequest2 | .onRequest1, .radioOn => true
  | .setChannel2, .updateChannel1 | .setTxPower2, .updateTxPower => true
  | .updateChannel1, .radioOff | .updateChannel1, .writeChannel _ | .updateChannel1, .onRequest1 => true
  | _, _ => false

/-- The shapes of a command's body from `s`. -/
inductive BodyCase (s : State) : Instr → State → Prop where
  /-- A contract violation (R200). -/
  | fault (i : Instr) (c : FaultCode) : BodyCase s i (s.raise c)
  /-- The command only leaves micro-steps, or nothing, to run (R115, R154, R155, R176). -/
  | leave (i : Instr) (l : List MicroStep) (hl : ∀ m ∈ l, leavesAtIssue i m = true) :
      BodyCase s i (s.setCont s.issuer l)
  /-- `INIT` (R105). -/
  | init : BodyCase s .init (initBody s)
  /-- `RESET` that is allowed (R106). -/
  | reset : BodyCase s .reset (initBody s)
  /-- `SETROLLOVER` above the count (R107). -/
  | setRollover (v : Word) (hv : s.clock.count < v) :
      BodyCase s (.setRollover v) { s with clock := { s.clock with rollover := v, compare := v } }
  /-- `SETCOUNT` below the rollover (R108). -/
  | setCount (v : Word) (hs : s.clock.compareState = .rollover) (hv : v < s.clock.rollover) :
      BodyCase s (.setCount v) { s with clock := { s.clock with count := v } }
  /-- `GETCOUNT` (R109). -/
  | getCount : BodyCase s .getCount { s with result := s.clock.count }
  /-- `GETTRIGGER` of a written trigger (R110). -/
  | getTrigger (hw : s.clock.triggerWritten = true) : BodyCase s .getTrigger { s with result := s.clock.trigger }
  /-- `SETTRIGGER` below the rollover (R111). -/
  | setTrigger (t : Word) (ht : t < s.clock.rollover) :
      BodyCase s (.setTrigger t) { s with clock := { s.clock with
        trigger := t, triggerWritten := true, compareState := armedState t s.clock.count,
        compare := armedCompare t s.clock.count s.clock.rollover } }
  /-- `CANCELTRIGGER` (R112). -/
  | cancelTrigger : BodyCase s .cancelTrigger (cancelTriggerBody s)
  /-- `ENABLE`, `DISABLE` and `HARDDISABLE` write the flags and leave the rest to run (R150, R152, R153). -/
  | writeFlags (i : Instr) (f : Byte) (l : List MicroStep)
      (hi : (∃ g, i = .enable g) ∨ (∃ g, i = .disable g) ∨ i = .hardDisable)
      (hl : ∀ m ∈ l, leavesAtIssue i m = true) :
      BodyCase s i ({ s with arbiter := { s.arbiter with enableFlags := f } }.setCont s.issuer l)
  /-- `SOFTENABLE` (R151). -/
  | softEnable (f : Byte) :
      BodyCase s (.softEnable f)
        { s with arbiter := { s.arbiter with enableFlags := addFlags s.arbiter.enableFlags f } }
  /-- `RADIOON` (R156). -/
  | radioOn : BodyCase s .radioOn (receiverOn s)
  /-- `RADIOOFF` (R157). -/
  | radioOff : BodyCase s .radioOff (receiverOff s)
  /-- `SETCHANNEL` of a channel in range (R175). -/
  | setChannel (ch : Byte) (hch : channelInRange s.cfg ch = true) :
      BodyCase s (.setChannel ch)
        ({ s with radio := { s.radio with requestedChannel := ch } }.setCont s.issuer [.setChannel2])
  /-- `UPDATECHANNEL` with a channel to apply (R176). -/
  | updateChannel :
      BodyCase s .updateChannel
        ({ s with radio := { s.radio with appliedChannel := s.radio.requestedChannel } }.setCont s.issuer
          [.radioOff, .writeChannel s.radio.requestedChannel, .onRequest1])
  /-- `SETTXPOWER` (R177). -/
  | setTxPower (atten : Byte) :
      BodyCase s (.setTxPower atten)
        ({ s with radio := { s.radio with requestedTxPower := txPowerOf s.cfg atten } }.setCont s.issuer
          [.setTxPower2])
  /-- `UPDATETXPOWER` with a power to apply (R178). -/
  | updateTxPower :
      BodyCase s .updateTxPower
        (({ s with radio := { s.radio with appliedTxPower := s.radio.requestedTxPower } }.emit
          (.hwSetTxPower s.radio.requestedTxPower)).setCont s.issuer [])

/-- Every command's body has one of the shapes. -/
theorem bodyOf_cases (i : Instr) (s : State) : BodyCase s i (bodyOf i s) := by
  cases i with
  | init => exact .init
  | reset =>
    dsimp only [bodyOf, resetBody]
    split
    · exact .fault _ _
    · exact .reset
  | setRollover v =>
    dsimp only [bodyOf, setRolloverBody]
    split
    · exact .setRollover v ‹_›
    · exact .fault _ _
  | setCount v =>
    dsimp only [bodyOf, setCountBody]
    split
    · exact .fault _ _
    · split
      · exact .setCount v (not_not.1 ‹_›) ‹_›
      · exact .fault _ _
  | getCount => exact .getCount
  | getTrigger =>
    dsimp only [bodyOf, getTriggerBody]
    split
    · exact .getTrigger ‹_›
    · exact .fault _ _
  | setTrigger t =>
    dsimp only [bodyOf, setTriggerBody]
    split
    · exact .setTrigger t ‹_›
    · exact .fault _ _
  | cancelTrigger => exact .cancelTrigger
  | realign rc rst =>
    dsimp only [bodyOf, realignBody]
    split
    · exact .fault _ _
    · exact .leave _ _ (by simp [leavesAtIssue])
  | enable f =>
    dsimp only [bodyOf, enableBody]
    split
    · exact .fault _ _
    · exact .writeFlags _ _ _ (.inl ⟨f, rfl⟩) (by simp [leavesAtIssue])
  | softEnable f =>
    dsimp only [bodyOf, softEnableBody]
    split
    · exact .fault _ _
    · exact .softEnable f
  | disable f =>
    dsimp only [bodyOf, disableBody]
    split
    · exact .fault _ _
    · exact .writeFlags _ _ _ (.inr (.inl ⟨f, rfl⟩)) (by split <;> simp [leavesAtIssue])
  | hardDisable => exact .writeFlags _ _ _ (.inr (.inr rfl)) (by simp [leavesAtIssue])
  | onRequest =>
    dsimp only [bodyOf, onRequestBody, onRequestStep1]
    split <;> exact .leave _ _ (by simp [leavesAtIssue])
  | offRequest =>
    dsimp only [bodyOf, offRequestBody, offRequestStep1]
    split <;> exact .leave _ _ (by simp [leavesAtIssue])
  | radioOn =>
    dsimp only [bodyOf]
    exact radioOnBody_eq s ▸ .radioOn
  | radioOff =>
    dsimp only [bodyOf]
    exact radioOffBody_eq s ▸ .radioOff
  | setChannel ch =>
    dsimp only [bodyOf, setChannelBody]
    split
    · exact .setChannel ch ‹_›
    · exact .fault _ _
  | updateChannel =>
    dsimp only [bodyOf, updateChannelBody, updateChannelStep1]
    split
    · exact .updateChannel
    · exact .leave _ _ (by simp)
  | setTxPower atten => exact .setTxPower atten
  | updateTxPower =>
    dsimp only [bodyOf, updateTxPowerBody, updateTxPowerStep]
    split
    · exact .updateTxPower
    · exact .leave _ _ (by simp)

/-! ### What a micro-step can do -/

/-- The shapes of a micro-step of agent `a` from `s`, with `rest` behind it. -/
inductive MicroCase (s : State) (a : Agent) (rest : List MicroStep) : MicroStep → State → Prop where
  /-- The micro-step only decides what is left to run (R142, R154, R175 to R178). -/
  | leave (m : MicroStep) (l : List MicroStep) (hl : ∀ x ∈ l, x ∈ rest ∨ leavesNext m x = true) :
      MicroCase s a rest m (s.setCont a l)
  /-- `REALIGN` step 2 (R116). -/
  | realignDelay (d : Nat) : MicroCase s a rest (.realignDelay d) ((forceDelay d s).setCont a rest)
  /-- `REALIGN` step 3 (R117). -/
  | realignWrite (delta : Int) (n : Word) : MicroCase s a rest (.realignWrite delta n) (realignStep3 delta n a s)
  /-- RadioOnBody (R140). -/
  | radioOn : MicroCase s a rest .radioOn ((receiverOn s).setCont a [])
  /-- RadioOffBody (R141). -/
  | radioOff : MicroCase s a rest .radioOff ((receiverOff s).setCont a rest)
  /-- OffRequestStep2 that the activity inputs allow (R142). -/
  | offRequest2 (ho : offAllowed s.inputs = true) :
      MicroCase s a rest .offRequest2
        ((((receiverOff s).emit .hwFlushRxFifo).emit .hwClearRxThresholdIrq).setCont a rest)
  /-- `HARDDISABLE` step 3 (R153). -/
  | haltCleanup : MicroCase s a rest .haltCleanup ((s.emit .cbRxHaltCleanup).setCont a rest)
  /-- `HARDDISABLE` step 4 (R153). -/
  | serviceTx : MicroCase s a rest .serviceTx ((s.emit .cbServiceTx).setCont a [])
  /-- `UPDATECHANNEL` step 1 with a channel to apply (R176). -/
  | updateChannel1 :
      MicroCase s a rest .updateChannel1
        ({ s with radio := { s.radio with appliedChannel := s.radio.requestedChannel } }.setCont a
          [.radioOff, .writeChannel s.radio.requestedChannel, .onRequest1])
  /-- `UPDATECHANNEL` step 3 (R176). -/
  | writeChannel (ch : Byte) : MicroCase s a rest (.writeChannel ch) ((s.emit (.hwSetChannel ch)).setCont a rest)
  /-- The body of `UPDATETXPOWER` with a power to apply (R178). -/
  | updateTxPower :
      MicroCase s a rest .updateTxPower
        (({ s with radio := { s.radio with appliedTxPower := s.radio.requestedTxPower } }.emit
          (.hwSetTxPower s.radio.requestedTxPower)).setCont a [])

/-- Every micro-step has one of the shapes. -/
theorem runMicro_cases (m : MicroStep) (a : Agent) (rest : List MicroStep) (s : State) :
    MicroCase s a rest m (runMicro m a rest s) := by
  cases m with
  | realignDelay d => exact .realignDelay d
  | realignWrite delta n => exact .realignWrite delta n
  | radioOn =>
    dsimp only [runMicro]
    exact radioOnBody_eq s ▸ .radioOn
  | radioOff =>
    dsimp only [runMicro]
    exact radioOffBody_eq s ▸ .radioOff
  | offRequest1 =>
    dsimp only [runMicro, offRequestStep1]
    split <;> exact .leave _ _ (by simp +contextual [leavesNext])
  | offRequest2 =>
    dsimp only [runMicro, offRequestStep2]
    split
    · exact radioOffBody_eq s ▸ .offRequest2 ‹_›
    · exact .leave _ _ (fun _ => .inl)
  | haltCleanup => exact .haltCleanup
  | serviceTx => exact .serviceTx
  | onRequest1 =>
    dsimp only [runMicro, onRequestStep1]
    split <;> exact .leave _ _ (by simp [leavesNext])
  | setChannel2 => exact .leave _ _ (by split <;> simp [leavesNext])
  | updateChannel1 =>
    dsimp only [runMicro, updateChannelStep1]
    split
    · exact .updateChannel1
    · exact .leave _ _ (by simp)
  | writeChannel ch => exact .writeChannel ch
  | setTxPower2 => exact .leave _ _ (by split <;> simp [leavesNext])
  | updateTxPower =>
    dsimp only [runMicro, updateTxPowerStep]
    split
    · exact .updateTxPower
    · exact .leave _ _ (by simp)

/-! ### The sequencer and the tick, field by field -/

/-- Phase B writes the phase alone of the clock (R122). -/
@[simp] theorem returnFromInterrupt_clock (s : State) :
    (returnFromInterrupt s).clock = { s.clock with isrPhase := .idle } := rfl

@[simp] theorem returnFromInterrupt_arbiter (s : State) : (returnFromInterrupt s).arbiter = s.arbiter := rfl

@[simp] theorem returnFromInterrupt_result (s : State) : (returnFromInterrupt s).result = s.result := rfl

@[simp] theorem returnFromInterrupt_radio (s : State) : (returnFromInterrupt s).radio = s.radio := rfl

@[simp] theorem returnFromInterrupt_conts (s : State) : (returnFromInterrupt s).conts = s.conts := rfl

@[simp] theorem returnFromInterrupt_latches (s : State) : (returnFromInterrupt s).latches = s.latches := rfl

@[simp] theorem timerTick_arbiter (s : State) : (timerTick s).arbiter = s.arbiter := rfl

@[simp] theorem timerTick_result (s : State) : (timerTick s).result = s.result := rfl

@[simp] theorem timerTick_radio (s : State) : (timerTick s).radio = s.radio := rfl

@[simp] theorem timerTick_conts (s : State) : (timerTick s).conts = s.conts := rfl

@[simp] theorem timerTick_latches (s : State) : (timerTick s).latches = s.latches := rfl

@[simp] theorem takeCompareInterrupt_arbiter (s : State) : (takeCompareInterrupt s).arbiter = s.arbiter := by
  rw [takeCompareInterrupt_frame]

@[simp] theorem takeCompareInterrupt_result (s : State) : (takeCompareInterrupt s).result = s.result := by
  rw [takeCompareInterrupt_frame]

@[simp] theorem takeCompareInterrupt_radio (s : State) : (takeCompareInterrupt s).radio = s.radio := by
  rw [takeCompareInterrupt_frame]

@[simp] theorem takeCompareInterrupt_conts (s : State) : (takeCompareInterrupt s).conts = s.conts := by
  rw [takeCompareInterrupt_frame]

@[simp] theorem takeCompareInterrupt_latches (s : State) : (takeCompareInterrupt s).latches = s.latches := by
  rw [takeCompareInterrupt_frame]

/-- Phase A on the clock, by the prior state (R121). -/
theorem takeCompareInterrupt_clock (s : State) :
    (takeCompareInterrupt s).clock =
      match s.clock.compareState with
      | .rollover => { s.clock with cmpPending := false, count := 0 }
      | .trigger => { s.clock with
          cmpPending := false, compareState := .rollover, compare := s.clock.rollover, isrPhase := .triggerCallbackDue }
      | .rolloverAndTrigger => { s.clock with
          cmpPending := false, count := 0, compareState := .rollover, compare := s.clock.rollover,
          isrPhase := .triggerCallbackDue }
      | .rolloverAndArmTrigger => { s.clock with
          cmpPending := false, count := 0, compareState := .trigger, compare := s.clock.trigger } := by
  cases h : s.clock.compareState <;>
    simp [takeCompareInterrupt, h, CompareState.hasRollover, CompareState.hasTrigger, rolloverStage, triggerStage,
      armStage]

@[simp] theorem takeCompareInterrupt_rollover (s : State) :
    (takeCompareInterrupt s).clock.rollover = s.clock.rollover := by
  rw [takeCompareInterrupt_clock]; split <;> rfl

@[simp] theorem takeCompareInterrupt_trigger (s : State) :
    (takeCompareInterrupt s).clock.trigger = s.clock.trigger := by
  rw [takeCompareInterrupt_clock]; split <;> rfl

@[simp] theorem takeCompareInterrupt_triggerWritten (s : State) :
    (takeCompareInterrupt s).clock.triggerWritten = s.clock.triggerWritten := by
  rw [takeCompareInterrupt_clock]; split <;> rfl

@[simp] theorem takeCompareInterrupt_subtick (s : State) :
    (takeCompareInterrupt s).clock.subtick = s.clock.subtick := by
  rw [takeCompareInterrupt_clock]; split <;> rfl

@[simp] theorem takeCompareInterrupt_clockInitialised (s : State) :
    (takeCompareInterrupt s).clock.clockInitialised = s.clock.clockInitialised := by
  rw [takeCompareInterrupt_clock]; split <;> rfl

/-- Phase A leaves the count or writes 0 (R121). -/
theorem takeCompareInterrupt_count (s : State) :
    (takeCompareInterrupt s).clock.count = s.clock.count ∨ (takeCompareInterrupt s).clock.count = 0 := by
  rw [takeCompareInterrupt_clock]; split <;> simp

end Sys2Proof.Machine
end

section
/-! PROOFS. The receiver, its indicator and its toggles (R36, R37, R145). -/

namespace Sys2Proof.Machine

/-- The event is one of the two the receiver invariant counts (R145). -/
def isToggle : Event → Bool
  | .hwRxOn | .hwRxOff => true
  | _ => false

/-- The invariant speaks of the arbiter and the trace only. -/
theorem receiverInv_congr {s t : State} (ha : t.arbiter = s.arbiter) (ho : t.out = s.out) :
    ReceiverInv t ↔ ReceiverInv s := by
  simp [ReceiverInv, ha, ho]

/-- An event that is no toggle keeps the receiver invariant. -/
theorem ReceiverInv.emit {s : State} (h : ReceiverInv s) {e : Event} (he : isToggle e = false) :
    ReceiverInv (s.emit e) := by
  obtain ⟨hled, halt, hafter⟩ := h
  refine ⟨hled, ?_, ?_⟩
  · cases e <;> simp_all [togglesAlternate_append, togglesAlternate, isToggle]
  · cases e <;> simp_all [receiverAfter_append, receiverAfter, isToggle]

/-- Switching the receiver on keeps the receiver invariant: the event only follows an off receiver. -/
theorem ReceiverInv.receiverOn {s : State} (h : ReceiverInv s) : ReceiverInv (receiverOn s) := by
  obtain ⟨hled, halt, hafter⟩ := h
  cases hon : s.arbiter.rxOn <;>
    simp_all [ReceiverInv, Machine.receiverOn, togglesAlternate_append, togglesAlternate,
      receiverAfter_append, receiverAfter]

/-- Switching it off keeps the receiver invariant: the event only follows an on receiver. -/
theorem ReceiverInv.receiverOff {s : State} (h : ReceiverInv s) : ReceiverInv (receiverOff s) := by
  obtain ⟨hled, halt, hafter⟩ := h
  cases hon : s.arbiter.rxOn <;>
    simp_all [ReceiverInv, Machine.receiverOff, togglesAlternate_append, togglesAlternate,
      receiverAfter_append, receiverAfter]

/-- A command's body keeps the receiver invariant. -/
theorem BodyCase.keeps_receiverInv {s t : State} {i : Instr} (hc : BodyCase s i t) (h : ReceiverInv s) :
    ReceiverInv t := by
  cases hc with
  | radioOn => exact h.receiverOn
  | radioOff => exact h.receiverOff
  | updateTxPower => exact ReceiverInv.emit (s := { s with radio := _ }) h rfl
  | _ => exact h

/-- A micro-step keeps the receiver invariant. -/
theorem MicroCase.keeps_receiverInv {s t : State} {a : Agent} {rest : List MicroStep} {m : MicroStep}
    (hc : MicroCase s a rest m t) (h : ReceiverInv s) : ReceiverInv t := by
  cases hc with
  | radioOn => exact h.receiverOn
  | radioOff => exact h.receiverOff
  | offRequest2 => exact (h.receiverOff.emit (e := .hwFlushRxFifo) rfl).emit (e := .hwClearRxThresholdIrq) rfl
  | haltCleanup => exact h.emit (e := .cbRxHaltCleanup) rfl
  | serviceTx => exact h.emit (e := .cbServiceTx) rfl
  | writeChannel ch => exact h.emit (e := .hwSetChannel ch) rfl
  | updateTxPower => exact ReceiverInv.emit (s := { s with radio := _ }) h rfl
  | _ => exact h

/-- Phase A emits at most the rollover callback, which is no toggle (R121). -/
theorem ReceiverInv.takeCompareInterrupt {s : State} (h : ReceiverInv s) : ReceiverInv (takeCompareInterrupt s) := by
  unfold ReceiverInv
  rw [takeCompareInterrupt_out, takeCompareInterrupt_arbiter]
  split
  · exact h.emit (e := .cbRollover) rfl
  · rwa [List.append_nil]

/-- Settles O43: only RadioOnBody and RadioOffBody touch the receiver, and each does so together with its event. -/
theorem stepKeepsReceiverInv : Obligations.StepKeepsReceiverInv := by
  intro s t h hstep
  have h' : ReceiverInv (consume s) := (receiverInv_congr (by simp) (by simp)).2 h
  cases step_cases hstep with
  | issue c hi i =>
    have hbody := (bodyOf_cases i ((consume s).asCaller c)).keeps_receiverInv h'
    exact (receiverInv_congr (by simp) (by simp)).2 hbody
  | micro a m rest => exact (runMicro_cases m a rest _).keeps_receiverInv h'
  | phaseA => exact h'.takeCompareInterrupt
  | phaseB => exact h'.emit (e := .cbTrigger) rfl
  | latch | drive => exact (receiverInv_congr (by simp) (by simp)).2 h
  | _ => exact h'

end Sys2Proof.Machine
end

section
/-! PROOFS. The registers of the clock: their invariants (R22, R27, R28) and who writes each (R22 to R26, R34). -/

namespace Sys2Proof.Machine

/-! ### The invariant of the running clock -/

/-- The invariant speaks of the parameters and the clock only. -/
theorem clockInv_congr {s t : State} (hp : t.cfg = s.cfg) (hc : t.clock = s.clock) : ClockInv t ↔ ClockInv s := by
  simp [ClockInv, hp, hc]

/-- `INIT` and `RESET` set it up (R105). -/
theorem ClockInv.initBody (s : State) : ClockInv (initBody s) := fun _ =>
  ⟨s.cfg.rolloverDefault_pos, s.cfg.ticksPerBackoff_pos, fun _ => rfl, nofun, nofun, fun h => absurd rfl h⟩

/-- The states `SETTRIGGER` arms have the trigger they stand for, and those with the rollover compare with it (R111). -/
theorem armedState_spec (t count rollover : Word) :
    ((armedState t count).hasRollover = true → armedCompare t count rollover = rollover) ∧
    (armedState t count = .rolloverAndTrigger → t = 0) ∧
    (armedState t count = .rolloverAndArmTrigger → 0 < t) := by
  unfold armedState armedCompare
  by_cases hlt : count < t
  · simp [hlt, CompareState.hasRollover]
  · by_cases hz : t = 0
    · simp [hz]
    · rw [if_neg hlt, if_neg hlt, if_neg hz]
      exact ⟨fun _ => rfl, nofun, fun _ => by bv_omega⟩

/-- A command's body keeps the clock's invariant, once the prologue has let it run (R103 (3)). -/
theorem BodyCase.keeps_clockInv {s t : State} {i : Instr} (hcase : BodyCase s i t) (h : ClockInv s)
    (hc : isClockCommand i = true → s.clock.clockInitialised = true) : ClockInv t := by
  cases hcase with
  | init | reset => exact .initBody s
  | setRollover v hv =>
    intro hinit
    obtain ⟨-, hsub, -, hzero, hpos, hwritten⟩ := h hinit
    have hroll : 0 < v := by bv_omega
    exact ⟨hroll, hsub, fun _ => rfl, hzero, hpos, hwritten⟩
  | setTrigger v hv =>
    intro hinit
    obtain ⟨hroll, hsub, -⟩ := h hinit
    obtain ⟨hcompare, hzero, hpos⟩ := armedState_spec v s.clock.count s.clock.rollover
    exact ⟨hroll, hsub, hcompare, hzero, hpos, fun _ => rfl⟩
  | cancelTrigger =>
    intro hinit
    obtain ⟨hroll, hsub, -⟩ := h hinit
    exact ⟨hroll, hsub, fun _ => rfl, nofun, nofun, fun h => absurd rfl h⟩
  | _ => exact h

/-- A micro-step writes no register the invariant speaks of. -/
theorem MicroCase.keeps_clockInv {s t : State} {a : Agent} {rest : List MicroStep} {m : MicroStep}
    (hcase : MicroCase s a rest m t) (h : ClockInv s) : ClockInv t := by
  cases hcase <;> exact h

/-- Phase A keeps it: the state it goes on to compares with what it stands for (R121). -/
theorem ClockInv.takeCompareInterrupt {s : State} (h : ClockInv s) : ClockInv (takeCompareInterrupt s) := by
  intro hinit
  obtain ⟨hroll, hsub, hcompare, -, -, hwritten⟩ := h (by simpa using hinit)
  refine ⟨by simpa using hroll, by simpa using hsub, ?_⟩
  rw [takeCompareInterrupt_clock]
  cases hs : s.clock.compareState <;> simp_all [CompareState.hasRollover]

/-- A tick keeps the sub-tick inside the period (R28, R100). -/
theorem subtick_tickClock_lt (p : Params) {c : Clock} (h : c.subtick < p.ticksPerBackoff) :
    (tickClock p c).subtick < p.ticksPerBackoff := by
  rcases tickClock_cases p c with ⟨-, ht⟩ | ⟨-, -, ht⟩ | ⟨-, hne, ht⟩
  · rwa [ht]
  · rw [ht]
    exact p.ticksPerBackoff_pos
  · rw [ht]
    simp only
    bv_omega

/-- A tick keeps the clock's invariant: of the registers it speaks of, it moves the sub-tick alone. -/
theorem ClockInv.timerTick {s : State} (h : ClockInv s) : ClockInv (timerTick s) := by
  intro hinit
  obtain ⟨hroll, hsub, hrest⟩ := h (by simpa using hinit)
  exact ⟨by simpa using hroll, subtick_tickClock_lt s.cfg hsub, by simpa using hrest⟩

/-- Settles O44: `INIT` and `RESET` set the invariant up, and every other writer of the clock keeps it. -/
theorem stepKeepsClockInv : Obligations.StepKeepsClockInv := by
  intro s t h hstep
  have h' : ClockInv (consume s) := (clockInv_congr (by simp) (by simp)).2 h
  cases step_cases hstep with
  | issue c hi i _ _ _ _ hc =>
    have hbody := (bodyOf_cases i ((consume s).asCaller c)).keeps_clockInv h' (by simpa using hc)
    exact (clockInv_congr (by simp) (by simp)).2 hbody
  | micro a m rest => exact (runMicro_cases m a rest _).keeps_clockInv h'
  | phaseA => exact h'.takeCompareInterrupt
  | tick => exact h'.timerTick
  | latch | drive => exact (clockInv_congr (by simp) (by simp)).2 h
  | _ => exact h'

/-! ### Who writes a register -/

/-- Only `INIT`, `RESET` and `SETROLLOVER` write the rollover (R22). -/
theorem BodyCase.rollover_eq_or {s t : State} {i : Instr} (h : BodyCase s i t) :
    t.clock.rollover = s.clock.rollover ∨ i = .init ∨ i = .reset ∨ i = .setRollover t.clock.rollover := by
  cases h with
  | init => exact .inr (.inl rfl)
  | reset => exact .inr (.inr (.inl rfl))
  | setRollover v => exact .inr (.inr (.inr rfl))
  | _ => exact .inl rfl

/-- Only `INIT`, `RESET` and `SETCOUNT` write the count when they are issued (R23). -/
theorem BodyCase.count_eq_or {s t : State} {i : Instr} (h : BodyCase s i t) :
    t.clock.count = s.clock.count ∨ i = .init ∨ i = .reset ∨ i = .setCount t.clock.count := by
  cases h with
  | init => exact .inr (.inl rfl)
  | reset => exact .inr (.inr (.inl rfl))
  | setCount v => exact .inr (.inr (.inr rfl))
  | _ => exact .inl rfl

/-- Only `SETTRIGGER` writes the trigger and its flag, which it sets (R25, R26). -/
theorem BodyCase.trigger_eq_or {s t : State} {i : Instr} (h : BodyCase s i t) :
    (t.clock.trigger = s.clock.trigger ∧ t.clock.triggerWritten = s.clock.triggerWritten) ∨
      (i = .setTrigger t.clock.trigger ∧ t.clock.triggerWritten = true) := by
  cases h with
  | setTrigger v => exact .inr ⟨rfl, rfl⟩
  | _ => exact .inl ⟨rfl, rfl⟩

/-- Only `INIT` and `RESET` write the initialised flag, which they set (R34). -/
theorem BodyCase.clockInitialised_eq_or {s t : State} {i : Instr} (h : BodyCase s i t) :
    t.clock.clockInitialised = s.clock.clockInitialised ∨
      (i = .init ∨ i = .reset) ∧ t.clock.clockInitialised = true := by
  cases h with
  | init => exact .inr ⟨.inl rfl, rfl⟩
  | reset => exact .inr ⟨.inr rfl, rfl⟩
  | _ => exact .inl rfl

/-- Of the clock a micro-step writes the count and the delay only (R116, R117). -/
theorem MicroCase.clock_frame {s t : State} {a : Agent} {rest : List MicroStep} {m : MicroStep}
    (h : MicroCase s a rest m t) :
    t.clock = { s.clock with count := t.clock.count, delayHold := t.clock.delayHold } := by
  cases h <;> rfl

/-- Only `REALIGN` step 3 writes the count, to the value it carries (R117). -/
theorem MicroCase.count_eq_or {s t : State} {a : Agent} {rest : List MicroStep} {m : MicroStep}
    (h : MicroCase s a rest m t) :
    t.clock.count = s.clock.count ∨ ∃ delta, m = .realignWrite delta t.clock.count := by
  cases h with
  | realignWrite delta n => exact .inr ⟨delta, rfl⟩
  | _ => exact .inl rfl

/-- Who writes the rollover (R22). -/
theorem StepCase.rollover_eq_or {s t : State} (h : StepCase s t) :
    t.clock.rollover = s.clock.rollover ∨
      issuedNext s = some .init ∨ issuedNext s = some .reset ∨
      issuedNext s = some (.setRollover t.clock.rollover) := by
  cases h with
  | issue c hi i _ _ hd => simpa [hd] using (bodyOf_cases i ((consume s).asCaller c)).rollover_eq_or
  | micro a m rest =>
    rw [(runMicro_cases m a rest (consume s)).clock_frame]
    simp
  | _ => simp

/-- Who writes the count (R23). -/
theorem StepCase.count_eq_or {s t : State} (h : StepCase s t) :
    t.clock.count = s.clock.count ∨
      nextStimulus s = .tick ∨ issuedNext s = some .init ∨ issuedNext s = some .reset ∨
      issuedNext s = some (.setCount t.clock.count) ∨
      (∃ delta, microNext s = some (.realignWrite delta t.clock.count)) ∨
      (nextStimulus s = .isr ∧ t.clock.count = 0) := by
  cases h with
  | issue c hi i _ _ hd =>
    have hcount := (bodyOf_cases i ((consume s).asCaller c)).count_eq_or
    rw [State.asCaller_clock, consume_clock] at hcount
    simp only [hd, State.latchHi_clock, Option.some.injEq]
    tauto
  | micro a m rest _ _ _ hm =>
    have hcount := (runMicro_cases m a rest (consume s)).count_eq_or
    rw [consume_clock] at hcount
    simp only [hm, Option.some.injEq]
    tauto
  | phaseA _ hn =>
    have hcount := takeCompareInterrupt_count (consume s)
    rw [consume_clock] at hcount
    tauto
  | tick _ hn => exact .inr (.inl hn)
  | _ => simp

/-- Who writes the trigger and its flag (R25, R26). -/
theorem StepCase.trigger_eq_or {s t : State} (h : StepCase s t) :
    (t.clock.trigger = s.clock.trigger ∧ t.clock.triggerWritten = s.clock.triggerWritten) ∨
      (issuedNext s = some (.setTrigger t.clock.trigger) ∧ t.clock.triggerWritten = true) := by
  cases h with
  | issue c hi i _ _ hd => simpa [hd] using (bodyOf_cases i ((consume s).asCaller c)).trigger_eq_or
  | micro a m rest =>
    rw [(runMicro_cases m a rest (consume s)).clock_frame]
    simp
  | _ => simp

/-- Who writes the initialised flag (R34). -/
theorem StepCase.clockInitialised_eq_or {s t : State} (h : StepCase s t) :
    t.clock.clockInitialised = s.clock.clockInitialised ∨
      (issuedNext s = some .init ∨ issuedNext s = some .reset) ∧ t.clock.clockInitialised = true := by
  cases h with
  | issue c hi i _ _ hd => simpa [hd] using (bodyOf_cases i ((consume s).asCaller c)).clockInitialised_eq_or
  | micro a m rest =>
    rw [(runMicro_cases m a rest (consume s)).clock_frame]
    simp
  | _ => simp

/-- Settles O53: one lemma per register. -/
theorem clockRegisterWriters : Obligations.ClockRegisterWriters := by
  intro s t hstep
  have hcase := step_cases hstep
  exact ⟨hcase.rollover_eq_or.resolve_left, hcase.count_eq_or.resolve_left,
    fun h => hcase.trigger_eq_or.resolve_left (by tauto), hcase.clockInitialised_eq_or.resolve_left⟩

end Sys2Proof.Machine
end

section
/-! PROOFS. The remaining micro-steps (R39): who leaves what, that they are the rest of one command, that no agent touches another's; and, with them, that nothing of the clock moves before `INIT` or `RESET` (R29 to R34). -/

namespace Sys2Proof.Machine

/-! ### Who leaves what to run -/

/-- A command's body puts into its issuer's list only what the command leaves. -/
theorem BodyCase.conts {s t : State} {i : Instr} (h : BodyCase s i t) :
    t.conts = s.conts ∨
      ∃ l, (∀ m ∈ l, leavesAtIssue i m = true) ∧ t.conts = s.conts.put s.issuer l := by
  cases h with
  | leave _ l hl | writeFlags _ _ l _ hl => exact .inr ⟨l, hl, rfl⟩
  | setChannel | updateChannel | setTxPower | updateTxPower => exact .inr ⟨_, by simp [leavesAtIssue], rfl⟩
  | _ => exact .inl rfl

/-- A micro-step puts into its agent's list only what stood behind it and what it leaves. -/
theorem MicroCase.conts {s t : State} {a : Agent} {rest : List MicroStep} {m : MicroStep}
    (h : MicroCase s a rest m t) :
    ∃ l, (∀ x ∈ l, x ∈ rest ∨ leavesNext m x = true) ∧ t.conts = s.conts.put a l := by
  cases h with
  | leave _ l hl => exact ⟨l, hl, rfl⟩
  | realignWrite | radioOn | serviceTx | updateTxPower => exact ⟨[], by simp, rfl⟩
  | updateChannel1 => exact ⟨_, by simp [leavesNext], rfl⟩
  | realignDelay | radioOff | offRequest2 | haltCleanup | writeChannel => exact ⟨rest, fun _ => .inl, rfl⟩

/-- Equal lists have the same members. -/
theorem mem_cont_congr {s t : State} (h : t.conts = s.conts) {a : Agent} {x : MicroStep} (hx : x ∈ t.cont a) :
    x ∈ s.cont a := cont_congr h a ▸ hx

/-- A micro-step left to run was left before, or by the command or the micro-step that ran (R39). -/
theorem StepCase.mem_cont {s t : State} (h : StepCase s t) {a : Agent} {x : MicroStep} (hx : x ∈ t.cont a) :
    x ∈ s.cont a ∨ (∃ i, issuedNext s = some i ∧ leavesAtIssue i x = true ∧
        (isClockCommand i = true → s.clock.clockInitialised = true)) ∨
      ∃ m, microNext s = some m ∧ leavesNext m x = true := by
  cases h with
  | issue c hi i _ _ hd _ hc =>
    rcases (bodyOf_cases i ((consume s).asCaller c)).conts with hsame | ⟨l, hl, hput⟩
    · exact .inl (mem_cont_congr (by simpa using hsame) hx)
    · rcases mem_cont_of_put (s := s) (by simpa using hput) hx with ⟨hxl, -⟩ | hxs
      · exact .inr (.inl ⟨i, hd, hl x hxl, hc⟩)
      · exact .inl hxs
  | micro b m rest _ _ _ hm hcont =>
    obtain ⟨l, hl, hput⟩ := (runMicro_cases m b rest (consume s)).conts
    rcases mem_cont_of_put (s := s) (by simpa using hput) hx with ⟨hxl, rfl⟩ | hxs
    · exact (hl x hxl).imp (fun hrest => hcont ▸ List.mem_cons_of_mem m hrest) fun hleft => .inr ⟨m, hm, hleft⟩
    · exact .inl hxs
  | _ => exact .inl (mem_cont_congr (by simp) hx)

/-! ### The rest of one command -/

/-- Putting the rest of a command into a caller's list keeps `ContInv`. -/
theorem ContInv.put {s t : State} (h : ContInv s) {c : Caller} {l : List MicroStep} (hl : legalCont l = true)
    (ht : t.conts = s.conts.put c.agent l) : ContInv t := by
  obtain ⟨hfg, henv, hisr⟩ := h
  unfold ContInv
  rw [ht]
  cases c with
  | fg => exact ⟨hl, henv, hisr⟩
  | envRadio => exact ⟨hfg, hl, hisr⟩

/-- The invariant speaks of the remaining micro-steps only. -/
theorem contInv_congr {s t : State} (h : t.conts = s.conts) : ContInv t ↔ ContInv s := by simp [ContInv, h]

/-- An agent that has a micro-step left is a caller, and what it has is the rest of a command. -/
theorem ContInv.of_cont_cons {s : State} (h : ContInv s) {a : Agent} {m : MicroStep} {rest : List MicroStep}
    (ha : s.cont a = m :: rest) : ∃ c : Caller, a = c.agent ∧ legalCont (m :: rest) = true := by
  obtain ⟨hfg, henv, hisr⟩ := h
  cases a with
  | fg => exact ⟨.fg, rfl, ha ▸ hfg⟩
  | envRadio => exact ⟨.envRadio, rfl, ha ▸ henv⟩
  | isrCmp => simp [State.cont, hisr] at ha
  | timer => simp [State.cont] at ha

/-- Settles O46: what a body or a micro-step of a legal rest puts is a legal rest, and only a caller's list is put. -/
theorem stepKeepsContInv : Obligations.StepKeepsContInv := by
  intro s t h hstep
  cases step_cases hstep with
  | issue c hi i =>
    rcases bodyOf_conts i ((consume s).asCaller c) with hsame | ⟨l, hl, hput⟩
    · exact (contInv_congr (by simpa using hsame)).2 h
    · exact h.put hl (by simpa using hput)
  | micro a m rest _ _ _ _ hcont =>
    obtain ⟨c, rfl, hlegal⟩ := h.of_cont_cons hcont
    obtain ⟨l, hl, hput⟩ := runMicro_conts m c.agent rest (consume s) hlegal
    exact h.put hl (by simpa using hput)
  | _ => exact (contInv_congr (by simp)).2 h

/-! ### Agents keep their own -/

theorem cmdLo_congr {s t : State} (h : t.latches = s.latches) (c : Caller) : t.cmdLo c = s.cmdLo c := by
  cases c <;> simp [State.cmdLo, h]

theorem cmdHi_congr {s t : State} (h : t.latches = s.latches) (c : Caller) : t.cmdHi c = s.cmdHi c := by
  cases c <;> simp [State.cmdHi, h]

/-- A latch of one caller's `CMD_LO` leaves the other's (R63). -/
theorem latches_latchLo_ne (s : State) {c d : Caller} (h : d ≠ c) (v : Word) :
    (s.latchLo c v).cmdLo d = s.cmdLo d ∧ (s.latchLo c v).cmdHi d = s.cmdHi d :=
  match c, d, h with
  | .fg, .fg, h | .envRadio, .envRadio, h => absurd rfl h
  | .fg, .envRadio, _ | .envRadio, .fg, _ => ⟨rfl, rfl⟩

/-- A latch of one caller's `CMD_HI` leaves the other's (R63). -/
theorem latches_latchHi_ne (s : State) {c d : Caller} (h : d ≠ c) (v : Word) :
    (s.latchHi c v).cmdLo d = s.cmdLo d ∧ (s.latchHi c v).cmdHi d = s.cmdHi d := by
  unfold State.latchHi
  split
  · exact ⟨rfl, rfl⟩
  · match c, d, h with
    | .fg, .fg, h | .envRadio, .envRadio, h => exact absurd rfl h
    | .fg, .envRadio, _ | .envRadio, .fg, _ => exact ⟨rfl, rfl⟩

/-- A step touches no remaining micro-steps but those of the agent whose step it is (R39). -/
theorem StepCase.conts_eq_or_put {s t : State} (h : StepCase s t) :
    t.conts = s.conts ∨ ∃ l, t.conts = s.conts.put (stimulusAgent (nextStimulus s)) l := by
  cases h with
  | issue c hi i _ hn =>
    rw [hn]
    rcases (bodyOf_cases i ((consume s).asCaller c)).conts with hsame | ⟨l, -, hput⟩
    · exact .inl (by simpa using hsame)
    · exact .inr ⟨l, by simpa [stimulusAgent] using hput⟩
  | micro a m rest _ ha =>
    obtain ⟨l, -, hput⟩ := (runMicro_cases m a rest (consume s)).conts
    exact .inr ⟨l, by simpa [ha] using hput⟩
  | _ => simp

/-- A step touches no command latches but those of the caller whose access it is (R63). -/
theorem StepCase.latches_of_ne {s t : State} (h : StepCase s t) {d : Caller}
    (hd : d.agent ≠ stimulusAgent (nextStimulus s)) : t.cmdLo d = s.cmdLo d ∧ t.cmdHi d = s.cmdHi d := by
  have hcong {u : State} (hu : u.latches = s.latches) : u.cmdLo d = s.cmdLo d ∧ u.cmdHi d = s.cmdHi d :=
    ⟨cmdLo_congr hu d, cmdHi_congr hu d⟩
  cases h with
  | latch c v _ hn =>
    rw [hn] at hd
    obtain ⟨hlo, hhi⟩ := latches_latchLo_ne (consume s) (fun h => hd (congrArg _ h)) v
    exact ⟨hlo.trans (hcong (by simp)).1, hhi.trans (hcong (by simp)).2⟩
  | issue c hi i _ hn =>
    rw [hn] at hd
    have hlatches := (bodyOf_surroundings i ((consume s).asCaller c)).latches
    obtain ⟨hlo, hhi⟩ := latches_latchHi_ne (bodyOf i ((consume s).asCaller c)) (fun h => hd (congrArg _ h)) hi
    exact ⟨hlo.trans (hcong (by simpa using hlatches)).1, hhi.trans (hcong (by simpa using hlatches)).2⟩
  | micro a m rest => exact hcong (by simpa using (runMicro_surroundings m a rest (consume s)).latches)
  | _ => exact hcong (by simp)

/-- Settles O57: a step puts into its own agent's list and latches only. -/
theorem agentsKeepTheirOwn : Obligations.AgentsKeepTheirOwn := by
  intro s t hstep
  have hcase := step_cases hstep
  refine ⟨fun a ha => ?_, fun d => hcase.latches_of_ne⟩
  rcases hcase.conts_eq_or_put with hsame | ⟨l, hput⟩
  · exact cont_congr hsame a
  · exact (cont_congr (s := s.setCont _ l) hput a).trans (cont_setCont_ne s ha.symm l)

/-! ### The clock before `INIT` -/

/-- Nothing of the clock has moved (R29 to R32). -/
def ClockQuiet (c : Clock) : Prop :=
  c.cmpPending = false ∧ c.cmpIe = false ∧ c.delayHold = 0 ∧ c.isrPhase = .idle ∧ c.triggerWritten = false

/-- The invariant in two parts: the clock, and that no agent has a micro-step of `REALIGN` left. -/
theorem quietInv_iff (s : State) :
    QuietInv s ↔ (s.clock.clockInitialised = false →
      ClockQuiet s.clock ∧ ∀ a, ∀ m ∈ s.cont a, isRealign m = false) := by
  have hconts : (∀ a, ∀ m ∈ s.cont a, isRealign m = false) ↔
      s.conts.fg.all (fun m => !isRealign m) = true ∧ s.conts.envRadio.all (fun m => !isRealign m) = true ∧
      s.conts.isrCmp.all (fun m => !isRealign m) = true := by
    simp only [List.all_eq_true, Bool.not_eq_true']
    constructor
    · intro h
      exact ⟨h .fg, h .envRadio, h .isrCmp⟩
    · rintro ⟨hfg, henv, hisr⟩ a
      cases a with
      | fg => exact hfg
      | envRadio => exact henv
      | isrCmp => exact hisr
      | timer => nofun
  rw [hconts]
  unfold ClockQuiet
  tauto

/-- A command that leaves the clock uninitialised has not written the clock: only `INIT` and `RESET` run there. -/
theorem BodyCase.clock_eq_of_uninitialised {s t : State} {i : Instr} (h : BodyCase s i t)
    (hc : isClockCommand i = true → s.clock.clockInitialised = true) (ht : t.clock.clockInitialised = false) :
    t.clock = s.clock := by
  cases h with
  | init | reset => cases ht
  | setRollover | setCount | setTrigger | cancelTrigger => exact absurd (hc rfl) (Bool.eq_false_iff.1 ht)
  | _ => rfl

/-- A step never withdraws the initialised flag (R34). -/
theorem StepCase.uninitialised_before {s t : State} (h : StepCase s t) (ht : t.clock.clockInitialised = false) :
    s.clock.clockInitialised = false := by
  rcases h.clockInitialised_eq_or with hsame | ⟨-, hset⟩
  · exact hsame ▸ ht
  · simp [ht] at hset

/-- Only `REALIGN`'s micro-steps write the clock (R116, R117). -/
theorem MicroCase.clock_eq {s t : State} {a : Agent} {rest : List MicroStep} {m : MicroStep}
    (h : MicroCase s a rest m t) (hm : isRealign m = false) : t.clock = s.clock := by
  cases h with
  | realignDelay | realignWrite => cases hm
  | _ => rfl

/-- From a quiet block, a step that leaves the clock uninitialised does not write it. -/
theorem StepCase.clock_eq_of_uninitialised {s t : State} (h : StepCase s t) (hq : QuietInv s)
    (ht : t.clock.clockInitialised = false) : t.clock = s.clock := by
  have hs := h.uninitialised_before ht
  obtain ⟨hquiet, hcont⟩ := (quietInv_iff s).1 hq hs
  obtain ⟨-, -, -, hidle, -⟩ := hquiet
  cases h with
  | issue c hi i _ _ _ _ hc =>
    simpa using (bodyOf_cases i ((consume s).asCaller c)).clock_eq_of_uninitialised (by simpa using hc)
      (by simpa using ht)
  | micro a m rest _ _ _ _ hcons =>
    simpa using (runMicro_cases m a rest (consume s)).clock_eq (hcont a m (by simp [hcons]))
  | phaseB _ _ hp => simp [hidle] at hp
  | phaseA _ _ hstart => simp [isrMayStart, hs] at hstart
  | tick _ _ hinit => simp [hs] at hinit
  | _ => simp

/-- Only the command `REALIGN` leaves micro-steps of `REALIGN`, and it is a clock command. -/
theorem isClockCommand_of_leaves_realign {i : Instr} {m : MicroStep} (hm : isRealign m = true)
    (h : leavesAtIssue i m = true) : isClockCommand i = true := by
  cases m with
  | realignDelay | realignWrite =>
    cases i with
    | realign => rfl
    | _ => cases h
  | _ => cases hm

/-- No micro-step leaves one of `REALIGN`'s beside those behind it. -/
theorem isRealign_of_leavesNext {m x : MicroStep} (h : leavesNext m x = true) : isRealign x = false := by
  cases x with
  | realignDelay | realignWrite => cases m <;> cases h
  | _ => rfl

/-- Settles O45: a step that leaves the clock uninitialised does not write it, and no command it issues is `REALIGN`. -/
theorem stepKeepsQuietInv : Obligations.StepKeepsQuietInv := by
  intro s t hq hstep
  have hcase := step_cases hstep
  refine (quietInv_iff t).2 fun ht => ?_
  have hs := hcase.uninitialised_before ht
  obtain ⟨hquiet, hcont⟩ := (quietInv_iff s).1 hq hs
  refine ⟨hcase.clock_eq_of_uninitialised hq ht ▸ hquiet, fun a x hx => ?_⟩
  rcases hcase.mem_cont hx with hold | ⟨i, -, hleaves, hclock⟩ | ⟨m, -, hleaves⟩
  · exact hcont a x hold
  · by_contra hreal
    have := hclock (isClockCommand_of_leaves_realign (by simpa using hreal) hleaves)
    simp [hs] at this
  · exact isRealign_of_leavesNext hleaves

end Sys2Proof.Machine
end

section
/-! PROOFS. Who writes `result`, the enable flags, the copies of channel and power, and the receiver flag (R33, R35, R36, R40, R41). -/

namespace Sys2Proof.Machine

/-! ### Result and enable flags -/

/-- Only `GETCOUNT` and `GETTRIGGER` write the result when they are issued (R33). -/
theorem BodyCase.result_eq_or {s t : State} {i : Instr} (h : BodyCase s i t) :
    t.result = s.result ∨ i = .getCount ∨ i = .getTrigger := by
  cases h with
  | getCount => exact .inr (.inl rfl)
  | getTrigger => exact .inr (.inr rfl)
  | _ => exact .inl rfl

/-- Only `REALIGN` step 3 writes the result, to the delta it carries (R117). -/
theorem MicroCase.result_eq_or {s t : State} {a : Agent} {rest : List MicroStep} {m : MicroStep}
    (h : MicroCase s a rest m t) :
    t.result = s.result ∨ ∃ delta n, m = .realignWrite delta n ∧ t.result = BitVec.ofInt 32 delta := by
  cases h with
  | realignWrite delta n => exact .inr ⟨delta, n, rfl, rfl⟩
  | _ => exact .inl rfl

/-- Only the flag commands write the enable flags (R35). -/
theorem BodyCase.enableFlags_eq_or {s t : State} {i : Instr} (h : BodyCase s i t) :
    t.arbiter.enableFlags = s.arbiter.enableFlags ∨ (∃ f, i = .enable f) ∨ (∃ f, i = .softEnable f) ∨
      (∃ f, i = .disable f) ∨ i = .hardDisable := by
  cases h with
  | writeFlags _ f l hi => exact .inr (hi.imp_right .inr)
  | softEnable f => exact .inr (.inr (.inl ⟨f, rfl⟩))
  | _ => exact .inl rfl

/-- No micro-step writes the enable flags (R35). -/
theorem MicroCase.enableFlags_eq {s t : State} {a : Agent} {rest : List MicroStep} {m : MicroStep}
    (h : MicroCase s a rest m t) : t.arbiter.enableFlags = s.arbiter.enableFlags := by
  cases h <;> rfl

/-- Who writes the result (R33). -/
theorem StepCase.result_eq_or {s t : State} (h : StepCase s t) :
    t.result = s.result ∨ issuedNext s = some .getCount ∨ issuedNext s = some .getTrigger ∨
      ∃ delta n, microNext s = some (.realignWrite delta n) ∧ t.result = BitVec.ofInt 32 delta := by
  cases h with
  | issue c hi i _ _ hd =>
    rcases (bodyOf_cases i ((consume s).asCaller c)).result_eq_or with hsame | rfl | rfl
    · exact .inl (by simpa using hsame)
    · exact .inr (.inl hd)
    · exact .inr (.inr (.inl hd))
  | micro a m rest _ _ _ hm =>
    rcases (runMicro_cases m a rest (consume s)).result_eq_or with hsame | ⟨delta, n, rfl, hres⟩
    · exact .inl (by simpa using hsame)
    · exact .inr (.inr (.inr ⟨delta, n, hm, hres⟩))
  | _ => simp

/-- Who writes the enable flags (R35). -/
theorem StepCase.enableFlags_eq_or {s t : State} (h : StepCase s t) :
    t.arbiter.enableFlags = s.arbiter.enableFlags ∨
      (∃ f, issuedNext s = some (.enable f)) ∨ (∃ f, issuedNext s = some (.softEnable f)) ∨
      (∃ f, issuedNext s = some (.disable f)) ∨ issuedNext s = some .hardDisable := by
  cases h with
  | issue c hi i _ _ hd => simpa [hd] using (bodyOf_cases i ((consume s).asCaller c)).enableFlags_eq_or
  | micro a m rest => exact .inl (by simpa using (runMicro_cases m a rest (consume s)).enableFlags_eq)
  | _ => simp

/-- Settles O54: one lemma per register. -/
theorem resultAndFlagWriters : Obligations.ResultAndFlagWriters := fun _ _ hstep =>
  ⟨(step_cases hstep).result_eq_or.resolve_left, (step_cases hstep).enableFlags_eq_or.resolve_left⟩

/-! ### Channel and power -/

/-- Which command writes which copy of the channel and the power, and to what (R170, R175 to R178). -/
theorem BodyCase.radio_eq_or {s t : State} {i : Instr} (h : BodyCase s i t) :
    t.radio = s.radio ∨
    (∃ ch, i = .setChannel ch ∧ t.radio = { s.radio with requestedChannel := ch }) ∨
    (i = .updateChannel ∧ t.radio = { s.radio with appliedChannel := s.radio.requestedChannel }) ∨
    (∃ atten, i = .setTxPower atten ∧ t.radio = { s.radio with requestedTxPower := txPowerOf s.cfg atten }) ∨
    (i = .updateTxPower ∧ t.radio = { s.radio with appliedTxPower := s.radio.requestedTxPower } ∧
      t.out = s.out ++ [.hwSetTxPower s.radio.requestedTxPower]) := by
  cases h with
  | setChannel ch => exact .inr (.inl ⟨ch, rfl, rfl⟩)
  | updateChannel => exact .inr (.inr (.inl ⟨rfl, rfl⟩))
  | setTxPower atten => exact .inr (.inr (.inr (.inl ⟨atten, rfl, rfl⟩)))
  | updateTxPower => exact .inr (.inr (.inr (.inr ⟨rfl, rfl, rfl⟩)))
  | _ => exact .inl rfl

/-- Which micro-step writes which applied copy (R176, R178). -/
theorem MicroCase.radio_eq_or {s t : State} {a : Agent} {rest : List MicroStep} {m : MicroStep}
    (h : MicroCase s a rest m t) :
    t.radio = s.radio ∨
    (m = .updateChannel1 ∧ t.radio = { s.radio with appliedChannel := s.radio.requestedChannel }) ∨
    (m = .updateTxPower ∧ t.radio = { s.radio with appliedTxPower := s.radio.requestedTxPower } ∧
      t.out = s.out ++ [.hwSetTxPower s.radio.requestedTxPower]) := by
  cases h with
  | updateChannel1 => exact .inr (.inl ⟨rfl, rfl⟩)
  | updateTxPower => exact .inr (.inr ⟨rfl, rfl, rfl⟩)
  | _ => exact .inl rfl

/-- Who writes the copies of the channel and the power, and to what (R170). -/
theorem StepCase.radio_eq_or {s t : State} (h : StepCase s t) :
    t.radio = s.radio ∨
    (∃ ch, issuedNext s = some (.setChannel ch) ∧ t.radio = { s.radio with requestedChannel := ch }) ∨
    ((issuedNext s = some .updateChannel ∨ microNext s = some .updateChannel1) ∧
      t.radio = { s.radio with appliedChannel := s.radio.requestedChannel }) ∨
    (∃ atten, issuedNext s = some (.setTxPower atten) ∧
      t.radio = { s.radio with requestedTxPower := txPowerOf s.cfg atten }) ∨
    ((issuedNext s = some .updateTxPower ∨ microNext s = some .updateTxPower) ∧
      t.radio = { s.radio with appliedTxPower := s.radio.requestedTxPower } ∧
      t.out = s.out ++ [.hwSetTxPower s.radio.requestedTxPower]) := by
  cases h with
  | issue c hi i _ _ hd =>
    have hradio := (bodyOf_cases i ((consume s).asCaller c)).radio_eq_or
    simp only [State.asCaller_radio, State.asCaller_out, State.asCaller_cfg, consume_radio, consume_out,
      consume_cfg] at hradio
    simp only [hd, State.latchHi_radio, State.latchHi_out, Option.some.injEq]
    rcases hradio with h | h | ⟨rfl, h⟩ | h | ⟨rfl, h⟩
    · exact .inl h
    · exact .inr (.inl h)
    · exact .inr (.inr (.inl ⟨.inl rfl, h⟩))
    · exact .inr (.inr (.inr (.inl h)))
    · exact .inr (.inr (.inr (.inr ⟨.inl rfl, h⟩)))
  | micro a m rest _ _ _ hm =>
    have hradio := (runMicro_cases m a rest (consume s)).radio_eq_or
    simp only [consume_radio, consume_out] at hradio
    simp only [hm, Option.some.injEq]
    tauto
  | _ => simp

/-- Settles O55: each shape of a write to the copies, compared with them as they were. -/
theorem appliedOnlyInsideUpdate : Obligations.AppliedOnlyInsideUpdate := by
  intro s t hstep
  rcases (step_cases hstep).radio_eq_or with
    hr | ⟨ch, hi, hr⟩ | ⟨hi, hr⟩ | ⟨atten, hi, hr⟩ | ⟨hi, hr, hout⟩ <;> rw [hr]
  · simp
  · simp [hi]
  · simp [hi]
  · simp [hi]
  · simp [hi, hout]

/-! ### The receiver -/

/-- Only `RADIOON` and `RADIOOFF` switch the receiver when they are issued (R36). -/
theorem BodyCase.rxOn_eq_or {s t : State} {i : Instr} (h : BodyCase s i t) :
    t.arbiter.rxOn = s.arbiter.rxOn ∨ (i = .radioOn ∧ t.arbiter.rxOn = true) ∨
      (i = .radioOff ∧ t.arbiter.rxOn = false) := by
  cases h with
  | radioOn => exact .inr (.inl ⟨rfl, rfl⟩)
  | radioOff => exact .inr (.inr ⟨rfl, rfl⟩)
  | _ => exact .inl rfl

/-- The RadioOn and RadioOff micro-steps switch the receiver, and OffRequestStep2 where the inputs
allow it (R140 to R142). -/
theorem MicroCase.rxOn_eq_or {s t : State} {a : Agent} {rest : List MicroStep} {m : MicroStep}
    (h : MicroCase s a rest m t) :
    t.arbiter.rxOn = s.arbiter.rxOn ∨ (m = .radioOn ∧ t.arbiter.rxOn = true) ∨
      ((m = .radioOff ∨ m = .offRequest2 ∧ offAllowed s.inputs = true) ∧ t.arbiter.rxOn = false) := by
  cases h with
  | radioOn => exact .inr (.inl ⟨rfl, rfl⟩)
  | radioOff => exact .inr (.inr ⟨.inl rfl, rfl⟩)
  | offRequest2 ho => exact .inr (.inr ⟨.inr ⟨rfl, ho⟩, rfl⟩)
  | _ => exact .inl rfl

/-- Who switches the receiver on, and who off (R36, R144). -/
theorem StepCase.rxOn_eq_or {s t : State} (h : StepCase s t) :
    t.arbiter.rxOn = s.arbiter.rxOn ∨
    ((issuedNext s = some .radioOn ∨ microNext s = some .radioOn) ∧ t.arbiter.rxOn = true) ∨
    ((issuedNext s = some .radioOff ∨ microNext s = some .radioOff ∨
      microNext s = some .offRequest2 ∧ offAllowed s.inputs = true) ∧ t.arbiter.rxOn = false) := by
  cases h with
  | issue c hi i _ _ hd =>
    have hon := (bodyOf_cases i ((consume s).asCaller c)).rxOn_eq_or
    simp only [State.asCaller_arbiter, consume_arbiter] at hon
    simp only [hd, State.latchHi_arbiter, Option.some.injEq]
    tauto
  | micro a m rest _ _ _ hm =>
    have hon := (runMicro_cases m a rest (consume s)).rxOn_eq_or
    simp only [consume_arbiter, consume_inputs] at hon
    simp only [hm, Option.some.injEq]
    tauto
  | _ => simp

/-- `HARDDISABLE` and `UPDATECHANNEL` alone leave a RadioOff micro-step when issued (R153, R176). -/
theorem leavesAtIssue_radioOff {i : Instr} (h : leavesAtIssue i .radioOff = true) :
    i = .hardDisable ∨ i = .updateChannel := by
  cases i with
  | hardDisable => exact .inl rfl
  | updateChannel => exact .inr rfl
  | _ => cases h

/-- `ENABLE` and `ONREQUEST` alone leave a RadioOn micro-step when issued (R150, R154). -/
theorem leavesAtIssue_radioOn {i : Instr} (h : leavesAtIssue i .radioOn = true) :
    (∃ f, i = .enable f) ∨ i = .onRequest := by
  cases i with
  | enable f => exact .inl ⟨f, rfl⟩
  | onRequest => exact .inr rfl
  | _ => cases h

/-- UpdateChannel's first micro-step alone leaves a RadioOff micro-step (R176). -/
theorem leavesNext_radioOff {m : MicroStep} (h : leavesNext m .radioOff = true) : m = .updateChannel1 := by
  cases m with
  | updateChannel1 => rfl
  | _ => cases h

/-- OnRequest's first micro-step alone leaves a RadioOn micro-step (R154). -/
theorem leavesNext_radioOn {m : MicroStep} (h : leavesNext m .radioOn = true) : m = .onRequest1 := by
  cases m with
  | onRequest1 => rfl
  | _ => cases h

/-- Settles O56: who switches the receiver, and which command or micro-step leaves a RadioOff or RadioOn to run. -/
theorem receiverGoesOffOnlyWhenAllowed : Obligations.ReceiverGoesOffOnlyWhenAllowed := by
  intro s t hstep
  have hcase := step_cases hstep
  have hon := hcase.rxOn_eq_or
  refine ⟨fun hs ht => ?_, fun hs ht => ?_, fun a hx => ?_, fun a hx => ?_⟩
  · rcases hon with hsame | ⟨-, hset⟩ | ⟨hwho, -⟩
    · simp [hs, ht] at hsame
    · simp [ht] at hset
    · rwa [offAllowed_iff] at hwho
  · rcases hon with hsame | ⟨hwho, -⟩ | ⟨-, hclear⟩
    · simp [hs, ht] at hsame
    · exact hwho
    · simp [ht] at hclear
  · rcases hcase.mem_cont hx with hold | ⟨i, hi, hleaves, -⟩ | ⟨m, hm, hleaves⟩
    · exact .inl hold
    · rcases leavesAtIssue_radioOff hleaves with rfl | rfl <;> simp [hi]
    · obtain rfl := leavesNext_radioOff hleaves
      simp [hm]
  · rcases hcase.mem_cont hx with hold | ⟨i, hi, hleaves, -⟩ | ⟨m, hm, hleaves⟩
    · exact .inl hold
    · rcases leavesAtIssue_radioOn hleaves with ⟨f, rfl⟩ | rfl <;> simp [hi]
    · obtain rfl := leavesNext_radioOn hleaves
      simp [hm]

end Sys2Proof.Machine
end

section
/-! PROOFS. Halt and reset: a faulted block (R43, R62), the power-on values (R46) and the invariants at reset. -/

namespace Sys2Proof.Machine

/-- Only the 32-bit read of STATUS inspects (R62). -/
theorem inspects_eq_some {x : Stimulus} {c : Caller} (h : inspects x = some c) :
    x = .access c (.read 0x0C 4) := by
  unfold inspects at h
  split at h
  · cases h; rfl
  · cases h

/-- Settles O41: the step of a faulted block is `haltedStep`, which answers only the inspection. -/
theorem faultedBlockIsHalted : Obligations.FaultedBlockIsHalted := by
  intro s c hf
  have hstep : step s = haltedStep c (nextStimulus s) (consume s) := by
    unfold step runStep
    rw [hf]
  rw [hstep]
  constructor
  · intro a hn
    rw [hn]
    rfl
  · intro hn
    have hnone : inspects (nextStimulus s) = none :=
      Option.eq_none_iff_forall_ne_some.2 fun a ha => hn a (inspects_eq_some ha)
    unfold haltedStep
    rw [hnone]

/-- Settles O38: `State.por` has each value as it stands. -/
theorem powerOnValues : Obligations.PowerOnValues := by
  intro p i
  refine ⟨rfl, rfl, rfl, rfl, rfl, rfl, rfl, rfl, fun a => ?_, rfl, rfl, rfl, fun c => ?_⟩
  · cases a <;> rfl
  · cases c <;> exact ⟨rfl, rfl⟩

/-- Settles O49: the clock is not initialised, nothing is left to run and the trace is empty; the channel and the power
are the configuration's own (R7). -/
theorem invariantsHoldAtReset : Obligations.InvariantsHoldAtReset := by
  have hch : channelInRange Config.params Config.params.channelInit = true := by
    simpa [channelInRange] using Config.params.channelInit_inRange
  have hp : powerKnown Config.params Config.params.txPowerInit = true := by simp [powerKnown]
  refine ⟨⟨rfl, rfl, rfl⟩, nofun, fun _ => ⟨rfl, rfl, rfl, rfl, rfl, rfl, rfl, rfl⟩, ⟨rfl, rfl, rfl⟩,
    ⟨hch, hch, fun a ch h => ?_, nofun⟩, hp, hp, nofun⟩
  cases a <;> cases h

end Sys2Proof.Machine
end

section
/-! PROOFS. Registers without a power-on value cannot be told apart (R26, R34, R240): `visible_step`, each operation shown not to see what `visible` blanks. -/

namespace Sys2Proof.Machine

/-! ### What `visible` keeps -/

@[simp] theorem visible_clock (s : State) : (visible s).clock = visibleClock s.clock := rfl

@[simp] theorem visible_result (s : State) : (visible s).result = s.result := rfl

@[simp] theorem visible_arbiter (s : State) : (visible s).arbiter = s.arbiter := rfl

@[simp] theorem visible_inputs (s : State) : (visible s).inputs = s.inputs := rfl

@[simp] theorem visible_conts (s : State) : (visible s).conts = s.conts := rfl

@[simp] theorem visible_radio (s : State) : (visible s).radio = s.radio := rfl

@[simp] theorem visible_fault (s : State) : (visible s).fault = s.fault := rfl

@[simp] theorem visible_cont (s : State) (a : Agent) : (visible s).cont a = s.cont a := rfl

@[simp] theorem visible_cmdLo (s : State) (c : Caller) : (visible s).cmdLo c = s.cmdLo c := rfl

@[simp] theorem visible_cmdHi (s : State) (c : Caller) : (visible s).cmdHi c = s.cmdHi c := rfl

/-- What is seen of each register of the clock (R26, R34). -/
theorem visibleClock_eq (c : Clock) :
    visibleClock c = { c with
      rollover := if c.clockInitialised then c.rollover else 0
      count := if c.clockInitialised then c.count else 0
      compare := if c.clockInitialised then c.compare else 0
      compareState := if c.clockInitialised then c.compareState else .rollover
      subtick := if c.clockInitialised then c.subtick else 0
      trigger := if c.triggerWritten then c.trigger else 0 } := by
  rcases c with ⟨_, _, _, _, written, _, _, _, _, _, _, init⟩
  cases written <;> cases init <;> rfl

@[simp] theorem visibleClock_cmpPending (c : Clock) : (visibleClock c).cmpPending = c.cmpPending := by
  rw [visibleClock_eq]

@[simp] theorem visibleClock_cmpIe (c : Clock) : (visibleClock c).cmpIe = c.cmpIe := by
  rw [visibleClock_eq]

@[simp] theorem visibleClock_isrPhase (c : Clock) : (visibleClock c).isrPhase = c.isrPhase := by
  rw [visibleClock_eq]

@[simp] theorem visibleClock_triggerWritten (c : Clock) : (visibleClock c).triggerWritten = c.triggerWritten := by
  rw [visibleClock_eq]

@[simp] theorem visibleClock_clockInitialised (c : Clock) :
    (visibleClock c).clockInitialised = c.clockInitialised := by
  rw [visibleClock_eq]

/-- What is blanked stays blank. -/
@[simp] theorem visibleClock_visibleClock (c : Clock) : visibleClock (visibleClock c) = visibleClock c := by
  rcases c with ⟨_, _, _, _, written, _, _, _, _, _, _, init⟩
  cases written <;> cases init <;> rfl

/-! ### Operations that do not look at the clock -/

/-- `s` with another clock. -/
def State.withClock (s : State) (c : Clock) : State := { s with clock := c }

/-- The operation neither reads nor writes the clock. -/
def IgnoresClock (f : State → State) : Prop := ∀ s c, f (s.withClock c) = (f s).withClock c

/-- An operation that does not look at the clock does not see what is blanked. -/
theorem IgnoresClock.visible_comm {f : State → State} (h : IgnoresClock f) (s : State) :
    f (visible s) = visible (f s) := by
  have hclock : (f s).clock = s.clock := by
    rw [show f s = (f s).withClock s.clock from h s s.clock]
    rfl
  exact (h s _).trans (by rw [← hclock]; rfl)

theorem ignoresClock_raise (e : FaultCode) : IgnoresClock (·.raise e) := fun _ _ => rfl

theorem ignoresClock_deliver (v : Word) : IgnoresClock (·.deliver v) := fun _ _ => rfl

theorem ignoresClock_latchLo (d : Caller) (v : Word) : IgnoresClock (·.latchLo d v) := by
  intro s c
  cases d <;> rfl

theorem ignoresClock_latchHi (d : Caller) (v : Word) : IgnoresClock (·.latchHi d v) := by
  intro s c
  dsimp only [State.latchHi, State.withClock]
  split
  · rfl
  · cases d <;> rfl

theorem ignoresClock_drive (i : InputLine) (v : Bool) : IgnoresClock (·.drive i v) := by
  intro s c
  cases i <;> rfl

theorem ignoresClock_consume : IgnoresClock consume := by
  intro s c
  dsimp only [consume, State.withClock]
  split <;> rfl

theorem ignoresClock_radioOnBody : IgnoresClock radioOnBody := by
  intro s c
  dsimp only [radioOnBody, State.withClock]
  split <;> rfl

theorem ignoresClock_radioOffBody : IgnoresClock radioOffBody := by
  intro s c
  dsimp only [radioOffBody, State.withClock]
  split <;> rfl

theorem ignoresClock_onRequestStep1 (a : Agent) : IgnoresClock (onRequestStep1 a) := by
  intro s c
  dsimp only [onRequestStep1, State.withClock]
  split <;> rfl

theorem ignoresClock_offRequestStep1 (a : Agent) (rest : List MicroStep) : IgnoresClock (offRequestStep1 a rest) := by
  intro s c
  dsimp only [offRequestStep1, State.withClock]
  split <;> rfl

theorem ignoresClock_offRequestStep2 (a : Agent) (rest : List MicroStep) : IgnoresClock (offRequestStep2 a rest) := by
  intro s c
  have hoff := ignoresClock_radioOffBody s c
  dsimp only [offRequestStep2]
  rw [hoff, show (s.withClock c).inputs = s.inputs from rfl]
  split <;> rfl

theorem ignoresClock_updateChannelStep1 (a : Agent) : IgnoresClock (updateChannelStep1 a) := by
  intro s c
  dsimp only [updateChannelStep1, State.withClock]
  split <;> rfl

theorem ignoresClock_updateTxPowerStep (a : Agent) : IgnoresClock (updateTxPowerStep a) := by
  intro s c
  dsimp only [updateTxPowerStep, State.withClock]
  split <;> rfl

/-- The commands of the arbiter and of the scheduler do not look at the clock. -/
theorem ignoresClock_bodyOf {i : Instr} (hc : ¬isClockCommand i = true) (hi : i ≠ .init) (hr : i ≠ .reset) :
    IgnoresClock (bodyOf i) := by
  cases i with
  | init => exact absurd rfl hi
  | reset => exact absurd rfl hr
  | setRollover | setCount | getCount | getTrigger | setTrigger | cancelTrigger | realign => exact absurd rfl hc
  | radioOn => exact ignoresClock_radioOnBody
  | radioOff => exact ignoresClock_radioOffBody
  | onRequest => exact fun s => ignoresClock_onRequestStep1 s.issuer s
  | offRequest => exact fun s => ignoresClock_offRequestStep1 s.issuer [] s
  | updateChannel => exact fun s => ignoresClock_updateChannelStep1 s.issuer s
  | updateTxPower => exact fun s => ignoresClock_updateTxPowerStep s.issuer s
  | hardDisable | setTxPower => exact fun _ _ => rfl
  | enable => intro s c; dsimp only [bodyOf, enableBody]; split <;> rfl
  | softEnable => intro s c; dsimp only [bodyOf, softEnableBody]; split <;> rfl
  | disable => intro s c; dsimp only [bodyOf, disableBody]; split <;> rfl
  | setChannel => intro s c; dsimp only [bodyOf, setChannelBody, State.withClock]; split <;> rfl

/-- The micro-steps other than `REALIGN`'s do not look at the clock. -/
theorem ignoresClock_runMicro {m : MicroStep} (hm : ¬isRealign m = true) (a : Agent) (rest : List MicroStep) :
    IgnoresClock (runMicro m a rest) := by
  cases m with
  | realignDelay | realignWrite => exact absurd rfl hm
  | radioOn => exact fun s c => congrArg (·.setCont a []) (ignoresClock_radioOnBody s c)
  | radioOff => exact fun s c => congrArg (·.setCont a rest) (ignoresClock_radioOffBody s c)
  | offRequest1 => exact ignoresClock_offRequestStep1 a rest
  | offRequest2 => exact ignoresClock_offRequestStep2 a rest
  | onRequest1 => exact ignoresClock_onRequestStep1 a
  | updateChannel1 => exact ignoresClock_updateChannelStep1 a
  | updateTxPower => exact ignoresClock_updateTxPowerStep a
  | haltCleanup | serviceTx | writeChannel | setChannel2 | setTxPower2 => exact fun _ _ => rfl

/-! ### Blanking before or after -/

@[simp] theorem visible_visible (s : State) : visible (visible s) = visible s := by simp [visible]

/-- An operation that does not look at the clock gives, from what is seen, what is seen of its result. -/
theorem IgnoresClock.visible_eq {f : State → State} (h : IgnoresClock f) (s : State) :
    visible (f (visible s)) = visible (f s) := by
  rw [h.visible_comm, visible_visible]

/-- Once initialised and with a written trigger, everything is seen. -/
theorem visible_eq_self {s : State} (hinit : s.clock.clockInitialised = true) (hw : s.clock.triggerWritten = true) :
    visible s = s := by
  simp only [visible, visibleClock_eq, if_pos hinit, if_pos hw]

/-- Once initialised, only a trigger never written is not seen. -/
theorem visible_of_unwritten {s : State} (hinit : s.clock.clockInitialised = true)
    (hw : s.clock.triggerWritten = false) : visible s = { s with clock := { s.clock with trigger := 0 } } := by
  simp [visible, visibleClock_eq, hinit, hw]

/-- The clock commands read no register that has no value yet (R26, R34). -/
theorem visible_clockBody {i : Instr} (hi : isClockCommand i = true) {s : State}
    (hinit : s.clock.clockInitialised = true) : visible (bodyOf i (visible s)) = visible (bodyOf i s) := by
  cases hw : s.clock.triggerWritten with
  | true => rw [visible_eq_self hinit hw]
  | false =>
    rw [visible_of_unwritten hinit hw]
    cases i with
    | setRollover v =>
      dsimp only [bodyOf, setRolloverBody]
      split <;> simp [visible, visibleClock_eq, hw]
    | setCount v =>
      dsimp only [bodyOf, setCountBody]
      (repeat' split) <;> simp [visible, visibleClock_eq, hw]
    | getCount => simp [bodyOf, getCountBody, visible, visibleClock_eq, hw]
    | getTrigger => simp [bodyOf, getTriggerBody, visible, visibleClock_eq, hw]
    | setTrigger t =>
      dsimp only [bodyOf, setTriggerBody]
      split <;> simp [visible, visibleClock_eq, hw]
    | cancelTrigger => simp [bodyOf, cancelTriggerBody, visible, visibleClock_eq, hw]
    | realign rc rst =>
      dsimp only [bodyOf, realignBody]
      split <;> simp [visible, visibleClock_eq, hw, State.issuer]
    | _ => cases hi

/-- `INIT` writes every register of the clock that had no value, but the trigger (R105). -/
theorem visible_initBody (s : State) : visible (initBody (visible s)) = visible (initBody s) := by
  simp +contextual [initBody, visible, visibleClock_eq]

/-- `RESET` with interrupts enabled (R106). -/
theorem resetBody_of_gie {s : State} (h : s.inputs.gie = true) : resetBody s = s.raise .resetIe := if_pos h

/-- `RESET` with interrupts disabled is `INIT` (R106). -/
theorem resetBody_of_not_gie {s : State} (h : ¬s.inputs.gie = true) : resetBody s = initBody s := if_neg h

/-- A command's body does not see what is blanked, where the prologue lets it run (R103). -/
theorem visible_bodyOf {i : Instr} {s : State} (hc : isClockCommand i = true → s.clock.clockInitialised = true) :
    visible (bodyOf i (visible s)) = visible (bodyOf i s) := by
  by_cases hi : isClockCommand i = true
  · exact visible_clockBody hi (hc hi)
  · cases i with
    | init => exact visible_initBody s
    | reset =>
      show visible (resetBody (visible s)) = visible (resetBody s)
      by_cases hgie : s.inputs.gie = true
      · rw [resetBody_of_gie hgie, resetBody_of_gie (s := visible s) hgie]
        exact (ignoresClock_raise _).visible_eq s
      · rw [resetBody_of_not_gie hgie, resetBody_of_not_gie (s := visible s) hgie]
        exact visible_initBody s
    | _ => exact (ignoresClock_bodyOf hi nofun nofun).visible_eq s

/-- A micro-step does not see what is blanked. -/
theorem visible_runMicro (m : MicroStep) (a : Agent) (rest : List MicroStep) (s : State) :
    visible (runMicro m a rest (visible s)) = visible (runMicro m a rest s) := by
  by_cases hm : isRealign m = true
  · cases m with
    | realignDelay d => simp +contextual [runMicro, realignStep2, forceDelay, State.setCont, visible, visibleClock_eq]
    | realignWrite delta n => simp +contextual [runMicro, realignStep3, State.setCont, visible, visibleClock_eq]
    | _ => cases hm
  · exact (ignoresClock_runMicro hm a rest).visible_eq s

/-- Phase B does not see what is blanked (R122). -/
theorem visible_returnFromInterrupt (s : State) :
    visible (returnFromInterrupt (visible s)) = visible (returnFromInterrupt s) := by
  simp +contextual [returnFromInterrupt, State.emit, visible, visibleClock_eq]

/-- Phase A arms a trigger only in a state that a `SETTRIGGER` made (R26, R121). -/
theorem visible_takeCompareInterrupt {s : State} (h : ClockInv s) (hinit : s.clock.clockInitialised = true) :
    visible (takeCompareInterrupt (visible s)) = visible (takeCompareInterrupt s) := by
  cases hw : s.clock.triggerWritten with
  | true => rw [visible_eq_self hinit hw]
  | false =>
    obtain ⟨-, -, -, -, -, hwritten⟩ := h hinit
    have hs : s.clock.compareState = .rollover := by
      by_contra hne
      simp [hwritten hne] at hw
    rw [visible_of_unwritten hinit hw]
    simp [takeCompareInterrupt, hs, CompareState.hasRollover, CompareState.hasTrigger, rolloverStage, State.emit,
      visible, visibleClock_eq, hw]

/-- A tick of an initialised clock does not look at the trigger (R100). -/
theorem visible_timerTick {s : State} (hinit : s.clock.clockInitialised = true) :
    visible (timerTick (visible s)) = visible (timerTick s) := by
  cases hw : s.clock.triggerWritten with
  | true => rw [visible_eq_self hinit hw]
  | false =>
    rw [visible_of_unwritten hinit hw]
    dsimp only [timerTick, tickClock, backoffElapsed]
    (repeat' split) <;> simp [visible, visibleClock_eq, hw]

/-! ### The step -/

/-- STATUS shows no compare state before `INIT` (R62). -/
@[simp] theorem statusWord_visible (a : Agent) (s : State) : statusWord a (visible s) = statusWord a s := by
  have hstate : statusCompareState (visible s) = statusCompareState s := by
    cases hinit : s.clock.clockInitialised <;> simp [statusCompareState, visibleClock_eq, hinit]
  unfold statusWord
  rw [hstate]
  simp [statusFaultCode]

/-- No register of the window shows what is blanked (R61). -/
@[simp] theorem readRegister_visible (c : Caller) (offset : Nat) (s : State) :
    readRegister c offset (visible s) = readRegister c offset s := by
  unfold readRegister
  split <;> cases hinit : s.clock.clockInitialised <;> cases hw : s.clock.triggerWritten <;>
    simp [initOnly, subtickWord, visibleClock_eq, hinit, hw, enableFlagsWord, channelWord, txPowerWord, delayHoldWord]

theorem visible_readAccess (c : Caller) (offset width : Nat) (s : State) :
    visible (readAccess c offset width (visible s)) = visible (readAccess c offset width s) := by
  have hread : readWindow c offset width (visible s) = readWindow c offset width s := by simp [readWindow]
  unfold readAccess
  rw [hread]
  split
  · exact (ignoresClock_deliver _).visible_eq s
  · exact (ignoresClock_raise _).visible_eq s

theorem visible_latchAccess (c : Caller) (offset width : Nat) (v : Word) (s : State) :
    visible (latchAccess c offset width v (visible s)) = visible (latchAccess c offset width v s) := by
  unfold latchAccess
  split
  · exact (ignoresClock_latchLo c v).visible_eq s
  · exact (ignoresClock_raise _).visible_eq s

/-- The prologue does not see what is blanked, if the body it lets run does not. -/
theorem visible_prologue {clock : Bool} {body : State → State} {s : State}
    (hb : (clock = true → s.clock.clockInitialised = true) → visible (body (visible s)) = visible (body s)) :
    visible (prologue clock body (visible s)) = visible (prologue clock body s) := by
  have hbusy : (visible s).busy = s.busy := rfl
  unfold prologue
  rw [hbusy, visible_clock, visibleClock_clockInitialised]
  split
  · exact (ignoresClock_raise _).visible_eq s
  · split
    · exact (ignoresClock_raise _).visible_eq s
    · exact hb (by simp_all)

theorem visible_issue (c : Caller) (hi : Word) (s : State) :
    onNext visible (issue c hi (visible s)) = onNext visible (issue c hi s) := by
  have hcaller : (visible s).asCaller c = visible (s.asCaller c) := rfl
  unfold issue
  rw [visible_cmdLo, hcaller]
  cases decode (joinHalves hi (s.cmdLo c)) with
  | error e =>
    exact congrArg Host.Outcome.next (visible_prologue fun _ => (ignoresClock_raise _).visible_eq _)
  | ok i =>
    simp only [exec_eq, onNext, Host.Outcome.next.injEq]
    rw [← (ignoresClock_latchHi c hi).visible_comm, ← (ignoresClock_latchHi c hi).visible_comm,
      visible_prologue visible_bodyOf]

/-- A step that an agent may or may not take. -/
theorem onNext_whenEnabled (f : State → State) (b : Bool) (a : Agent) (o : Answer) :
    onNext f (whenEnabled b a o) = whenEnabled b a (onNext f o) := by
  cases b <;> rfl

theorem visible_microAnswer (a : Agent) (s : State) :
    onNext visible (microAnswer a (visible s)) = onNext visible (microAnswer a s) := by
  unfold microAnswer microStep
  rw [visible_cont]
  cases s.cont a with
  | nil => rfl
  | cons m rest => exact congrArg Host.Outcome.next (visible_runMicro m a rest s)

theorem visible_isrStep {s : State} (h : ClockInv s) :
    onNext visible (isrStep (visible s)) = onNext visible (isrStep s) := by
  have hstart : isrMayStart (visible s) = isrMayStart s := by simp [isrMayStart]
  unfold isrStep
  rw [hstart, visible_conts, visible_clock, visibleClock_isrPhase]
  split
  · exact visible_microAnswer .isrCmp s
  · split
    · exact congrArg Host.Outcome.next (visible_returnFromInterrupt s)
    · cases hs : isrMayStart s with
      | false => rfl
      | true =>
        have hinit : s.clock.clockInitialised = true := by
          simp only [isrMayStart, Bool.and_eq_true] at hs
          tauto
        exact congrArg Host.Outcome.next (visible_takeCompareInterrupt h hinit)

theorem visible_accessStep (c : Caller) (a : Access) (s : State) :
    onNext visible (accessStep c a (visible s)) = onNext visible (accessStep c a s) := by
  cases a with
  | read offset width => exact congrArg Host.Outcome.next (visible_readAccess c offset width s)
  | write offset width v =>
    dsimp only [accessStep]
    split
    · exact visible_issue c v s
    · exact congrArg Host.Outcome.next (visible_latchAccess c offset width v s)

theorem visible_runStimulus (x : Stimulus) {s : State} (h : ClockInv s) :
    onNext visible (runStimulus x (visible s)) = onNext visible (runStimulus x s) := by
  have hfree : fgFree (visible s) = fgFree s := by simp [fgFree]
  cases x with
  | access c a =>
    have hmay : mayAccess c a (visible s) = mayAccess c a s := by cases c <;> simp [mayAccess, hfree, envMayIssue]
    simp only [runStimulus, hmay, onNext_whenEnabled, visible_accessStep]
  | micro c =>
    have hmay : mayContinue c (visible s) = mayContinue c s := by cases c <;> simp [mayContinue, hfree]
    simp only [runStimulus, hmay, onNext_whenEnabled, visible_microAnswer]
  | isr => exact visible_isrStep h
  | tick =>
    have hruns : timerRuns (visible s) = timerRuns s := by simp [timerRuns]
    dsimp only [runStimulus]
    rw [hruns]
    cases hr : timerRuns s with
    | false => rfl
    | true =>
      have hinit : s.clock.clockInitialised = true := by
        simp only [timerRuns, Bool.and_eq_true] at hr
        exact hr.1
      exact congrArg Host.Outcome.next (visible_timerTick hinit)
  | drive i v => exact congrArg Host.Outcome.next ((ignoresClock_drive i v).visible_eq s)

theorem visible_haltedStep (c : FaultCode) (x : Stimulus) (s : State) :
    onNext visible (haltedStep c x (visible s)) = onNext visible (haltedStep c x s) := by
  unfold haltedStep
  cases inspects x with
  | none => rfl
  | some a =>
    simp only [statusWord_visible]
    exact congrArg Host.Outcome.next ((ignoresClock_deliver _).visible_eq s)

/-- A step from what is seen of a state gives what is seen of the step's answer. -/
theorem visible_step {s : State} (h : ClockInv s) : onNext visible (step (visible s)) = onNext visible (step s) := by
  have hconsume := ignoresClock_consume.visible_comm s
  have h' : ClockInv (consume s) := (clockInv_congr (by simp) (by simp)).2 h
  unfold step runStep
  rw [hconsume, visible_fault, show nextStimulus (visible s) = nextStimulus s from rfl]
  cases s.fault with
  | some c => exact visible_haltedStep c _ _
  | none => exact visible_runStimulus _ h'

/-- Settles O58: both answers are seen as the answer from the common visible state. -/
theorem powerOnValuesInvisible : Obligations.PowerOnValuesInvisible := by
  intro s s' h h' hvis
  calc onNext visible (step s) = onNext visible (step (visible s)) := (visible_step h).symm
    _ = onNext visible (step (visible s')) := by rw [hvis]
    _ = onNext visible (step s') := visible_step h'

end Sys2Proof.Machine
end

section
/-! PROOFS. The window (20_memory.md R60 to R66): what an access does as a step, where there is no register, how the latches read back, and the writes that issue a command. -/

namespace Sys2Proof.Machine

/-! ### The command latches -/

/-- A latch of `CMD_LO` reads back, and leaves its writer's `CMD_HI` (R61, R63). -/
theorem latches_latchLo_self (s : State) (c : Caller) (v : Word) :
    (s.latchLo c v).cmdLo c = v ∧ (s.latchLo c v).cmdHi c = s.cmdHi c := by
  cases c <;> exact ⟨rfl, rfl⟩

/-- A latch of `CMD_HI` in an unfaulted block reads back, and leaves its writer's `CMD_LO` (R61, R63). -/
theorem latches_latchHi_self {s : State} (hf : s.fault = none) (c : Caller) (v : Word) :
    (s.latchHi c v).cmdLo c = s.cmdLo c ∧ (s.latchHi c v).cmdHi c = v := by
  unfold State.latchHi
  rw [hf]
  cases c <;> exact ⟨rfl, rfl⟩

/-- A latch of `CMD_LO` writes the latches only. -/
theorem latchLo_frame (s : State) (c : Caller) (v : Word) :
    s.latchLo c v = { s with latches := (s.latchLo c v).latches } := by
  cases c <;> rfl

theorem latchLo_schedule (s : State) (x : Stimulus) (c : Caller) (v : Word) :
    (s.schedule x).latchLo c v = (s.latchLo c v).schedule x := by
  cases c <;> rfl

/-! ### Accesses as steps -/

/-- The step of an access its caller may perform is the access. -/
theorem step_access {s : State} {c : Caller} {a : Access} (hf : s.fault = none) (hm : mayAccess c a s = true) :
    step (s.schedule (.access c a)) = accessStep c a s := by
  rw [step_schedule hf]
  dsimp only [runStimulus]
  rw [hm]
  rfl

/-- A caller that may issue a command may perform any access (R212; log 14). -/
theorem mayAccess_of_mayIssue {s : State} {c : Caller} {hi : Word}
    (h : mayAccess c (.write 0x04 4 hi) s = true) (a : Access) : mayAccess c a s = true := by
  cases c with
  | fg => exact h
  | envRadio =>
    have hissue : envMayIssue s = true := h
    simp [mayAccess, hissue]

@[simp] theorem mayAccess_schedule (s : State) (x : Stimulus) (c : Caller) (a : Access) :
    mayAccess c a (s.schedule x) = mayAccess c a s := rfl

@[simp] theorem mayAccess_latchLo (s : State) (d : Caller) (v : Word) (c : Caller) (a : Access) :
    mayAccess c a (s.latchLo d v) = mayAccess c a s := by
  cases c <;> simp [mayAccess, fgFree, envMayIssue]

@[simp] theorem accessStep_read (c : Caller) (offset width : Nat) (s : State) :
    accessStep c (.read offset width) s = .next (readAccess c offset width s) := rfl

@[simp] theorem accessStep_writeLo (c : Caller) (v : Word) (s : State) :
    accessStep c (.write 0x00 4 v) s = .next (s.latchLo c v) := rfl

@[simp] theorem accessStep_writeHi (c : Caller) (v : Word) (s : State) :
    accessStep c (.write 0x04 4 v) s = issue c v s := rfl

/-- A write that is not the 32-bit write of `CMD_LO` or `CMD_HI` (R64). -/
theorem accessStep_badWrite {offset width : Nat} (h : width ≠ 4 ∨ (offset ≠ 0x00 ∧ offset ≠ 0x04)) (c : Caller)
    (v : Word) (s : State) : accessStep c (.write offset width v) s = .next (s.raise .badAccess) := by
  have hissue : ¬issues (.write offset width v) = true := by
    simp only [issues, Bool.and_eq_true, decide_eq_true_eq]
    omega
  have hlatch : ¬(offset = 0x00 ∧ width = 4) := by omega
  dsimp only [accessStep, latchAccess]
  rw [if_neg hissue, if_neg hlatch]

/-- A read that returns a value delivers it (R66). -/
theorem readAccess_of_ok {c : Caller} {offset width : Nat} {s : State} {v : Word}
    (h : readWindow c offset width s = .ok v) : readAccess c offset width s = s.deliver v := by
  unfold readAccess
  rw [h]

/-- A read that returns none raises its fault (R61, R64). -/
theorem readAccess_of_error {c : Caller} {offset width : Nat} {s : State} {e : FaultCode}
    (h : readWindow c offset width s = .error e) : readAccess c offset width s = s.raise e := by
  unfold readAccess
  rw [h]

/-! ### The registers -/

/-- There is no register off the aligned offsets, nor from 0x38 on (R61, R64). -/
theorem readRegister_badAccess {offset : Nat} (h : offset % 4 ≠ 0 ∨ 0x38 ≤ offset) (c : Caller) (s : State) :
    readRegister c offset s = .error .badAccess := by
  unfold readRegister
  split
  case h_15 => rfl
  all_goals omega

/-- A read of another width, or where there is no register (R64). -/
theorem readWindow_badAccess {offset width : Nat} (h : width ≠ 4 ∨ offset % 4 ≠ 0 ∨ 0x38 ≤ offset) (c : Caller)
    (s : State) : readWindow c offset width s = .error .badAccess := by
  unfold readWindow
  split
  · exact readRegister_badAccess (by omega) c s
  · rfl

/-- A read that returns a value is of a register, at an aligned offset. -/
theorem readWindow_eq_ok {c : Caller} {offset width : Nat} {s : State} {v : Word}
    (h : readWindow c offset width s = .ok v) : offset % 4 = 0 ∧ readRegister c offset s = .ok v := by
  by_cases hbad : width ≠ 4 ∨ offset % 4 ≠ 0 ∨ 0x38 ≤ offset
  · rw [readWindow_badAccess hbad] at h
    cases h
  · obtain ⟨rfl, halign, -⟩ : width = 4 ∧ offset % 4 = 0 ∧ offset < 0x38 := by omega
    exact ⟨halign, h⟩

/-- The four bytes at a register are its bits, the lowest first (R65). -/
theorem windowByte_of_register {c : Caller} {offset : Nat} {s : State} {v : Word}
    (h : readRegister c offset s = .ok v) (halign : offset % 4 = 0) {j : Nat} (hj : j < 4) :
    windowByte c (offset + j) s = .ok (v.extractLsb' (8 * j) 8) := by
  have hword : (offset + j) / 4 * 4 = offset := by omega
  have hbyte : (offset + j) % 4 = j := by omega
  unfold windowByte
  rw [hword, hbyte, h]

/-- Settles O9: there is no register to read, and neither latch to write. -/
theorem badAccessFaults : Obligations.BadAccessFaults := by
  intro s c offset width v hf
  constructor
  · intro hm hbad
    rw [step_access hf hm, accessStep_read, readAccess_of_error (readWindow_badAccess hbad c s)]
  · intro hm hbad
    rw [step_access hf hm, accessStep_badWrite hbad]

/-- Settles O12: a read delivers or raises; a byte is looked up in the register at its aligned offset. -/
theorem readsHaveNoSideEffect : Obligations.ReadsHaveNoSideEffect := by
  intro s c offset width hf hm
  constructor
  · intro v hv
    obtain ⟨halign, hreg⟩ := readWindow_eq_ok hv
    have haligned : offset / 4 * 4 = offset := by omega
    rw [step_access hf hm, accessStep_read, readAccess_of_ok hv, haligned]
    exact ⟨rfl, fun _ => windowByte_of_register hreg halign⟩
  · intro e he
    rw [step_access hf hm, accessStep_read, readAccess_of_error he]
    rfl

/-! ### Reading the latches back -/

/-- The two callers are two agents. -/
theorem callerAgent_injective : Function.Injective Caller.agent := fun c d h =>
  match c, d, h with
  | .fg, .fg, _ | .envRadio, .envRadio, _ => rfl

/-- What a caller reads of its latches, from what they hold (R61). -/
theorem readWindow_latches_congr {s t : State} {d : Caller}
    (h : t.cmdLo d = s.cmdLo d ∧ t.cmdHi d = s.cmdHi d) :
    readWindow d 0x00 4 t = readWindow d 0x00 4 s ∧ readWindow d 0x04 4 t = readWindow d 0x04 4 s :=
  ⟨congrArg Except.ok h.1, congrArg Except.ok h.2⟩

/-- A `CMD_HI` write that does not fault ran a command's body, which left both latches, and latched its value. -/
theorem latches_of_issue {s t : State} {c : Caller} {hi : Word}
    (h : step (s.schedule (.access c (.write 0x04 4 hi))) = .next t) (hf : t.fault = none) :
    t.cmdLo c = s.cmdLo c ∧ t.cmdHi c = hi := by
  cases step_cases h with
  | issue d w i _ hn =>
    obtain ⟨rfl, rfl⟩ : c = d ∧ hi = w := by simpa using hn
    obtain ⟨hlo, hhi⟩ := latches_latchHi_self (by simpa using hf) c hi
    exact ⟨hlo.trans (cmdLo_congr (bodyOf_surroundings i (s.asCaller c)).latches c), hhi⟩
  | readFault | badWrite | issueFault => cases hf
  | inspect e v he => cases he.symm.trans hf
  | micro a m rest _ _ _ hm => cases hm
  | read _ _ _ _ hn | latch _ _ _ hn | phaseB _ hn | phaseA _ hn | tick _ hn | drive _ _ _ hn => cases hn

/-- Settles O13: each latch reads back; the other caller's stand, as after every step (`StepCase.latches_of_ne`). -/
theorem latchesReadBack : Obligations.LatchesReadBack := by
  intro s c v hf
  constructor
  · intro hm
    obtain ⟨hlo, hhi⟩ := latches_latchLo_self s c v
    refine ⟨s.latchLo c v, ?_, latchLo_frame s c v, congrArg Except.ok hlo, congrArg Except.ok hhi,
      fun d hd => readWindow_latches_congr (latches_latchLo_ne s hd v)⟩
    rw [step_access hf hm, accessStep_writeLo]
  · intro t hstep ht
    obtain ⟨hlo, hhi⟩ := latches_of_issue hstep ht
    refine ⟨congrArg Except.ok hhi, congrArg Except.ok hlo, fun d hd => readWindow_latches_congr ?_⟩
    exact (step_cases hstep).latches_of_ne fun h => hd (callerAgent_injective h)

/-! ### Issuing a command -/

/-- A `CMD_HI` write that completes the word of a command executes it (R63). -/
theorem issue_of_decode {s : State} {c : Caller} {hi : Word} {i : Instr}
    (h : decode (joinHalves hi (s.cmdLo c)) = .ok i) :
    issue c hi s = onNext (fun t => t.latchHi c hi) (exec i (s.asCaller c)) := by
  unfold issue
  rw [h]

/-- The step of a `CMD_HI` write that completes the word of a command. -/
theorem step_of_issue {s : State} {c : Caller} {hi : Word} {i : Instr} (hf : s.fault = none)
    (hm : mayAccess c (.write 0x04 4 hi) s = true) (hd : decode (joinHalves hi (s.cmdLo c)) = .ok i) :
    step (s.schedule (.access c (.write 0x04 4 hi))) =
      onNext (fun t => t.latchHi c hi) (exec i (s.asCaller c)) := by
  rw [step_access hf hm, accessStep_writeHi, issue_of_decode hd]

/-- The same step where `lo` has just been latched (R63). -/
theorem step_of_issue_latchLo {s : State} {c : Caller} {lo hi : Word} {i : Instr} (hf : s.fault = none)
    (hm : mayAccess c (.write 0x04 4 hi) s = true) (hd : decode (joinHalves hi lo) = .ok i) :
    step ((s.latchLo c lo).schedule (.access c (.write 0x04 4 hi))) =
      onNext (fun t => t.latchHi c hi) (exec i ((s.latchLo c lo).asCaller c)) := by
  refine step_of_issue (by simpa using hf) (by simpa using hm) ?_
  rwa [(latches_latchLo_self s c lo).1]

/-- A table word is read as its two halves joined. -/
theorem decode_of_decodeTableWord {nbits w : Nat} {i : Instr} (h : decodeTableWord nbits w = some i) :
    decode (joinHalves (highHalf (tableWord nbits w)) (lowHalf (tableWord nbits w))) = .ok i := by
  unfold decodeTableWord at h
  dsimp only at h
  split at h
  · cases h; assumption
  · cases h

/-- Settles O6: a table word is placed by latching its low half, so both clauses are the step of an issue. -/
theorem stepRunsIssuedCommand : Obligations.StepRunsIssuedCommand :=
  ⟨fun _ _ _ _ => step_of_issue, fun _ _ _ _ hf hfree hw =>
    step_of_issue_latchLo (c := .fg) hf hfree (decode_of_decodeTableWord hw)⟩

/-- A host write at an offset from `P_WINDOW_BASE` is the access at that offset (R60). -/
theorem memWrite_windowBase_add (p : Params) (c : Caller) (offset n : Nat) (v : Word) :
    memWrite p c (p.windowBase + offset) n v = some (.access c (.write offset n v)) := by
  unfold memWrite
  rw [if_pos (Nat.le_add_right _ _), Nat.add_sub_cancel_left]

/-- Settles O7: the first write latches `lo`, whatever was there, and the second is the step of an issue. -/
theorem twoWritesIssueTheWord : Obligations.TwoWritesIssueTheWord := by
  intro s c lo hi i hf hm hd
  refine ⟨_, _, (s.latchLo c lo).schedule (.access c (.write 0x04 4 hi)), memWrite_windowBase_add ..,
    memWrite_windowBase_add .., ?_, step_of_issue_latchLo hf hm hd⟩
  have hlo : mayAccess c (.write 0x00 4 lo) (s.schedule (.access c (.write 0x04 4 hi))) = true :=
    mayAccess_of_mayIssue hm _
  rw [step_access (s := s.schedule _) hf hlo, accessStep_writeLo, latchLo_schedule]

end Sys2Proof.Machine
end

section
/-! PROOFS. What the window shows: the registers as they read (R61) and the fields of STATUS (R62). -/

namespace Sys2Proof.Machine

/-! ### The packed registers -/

/-- SUBTICK is the sub-tick below 16 zero bits. -/
theorem subtickWord_eq (s : State) : subtickWord s = s.clock.subtick.zeroExtend 32 :=
  (BitVec.setWidth_eq_append (by decide)).symm

/-- ENABLE_FLAGS is the flag set below 24 zero bits. -/
theorem enableFlagsWord_eq (s : State) : enableFlagsWord s = s.arbiter.enableFlags.zeroExtend 32 :=
  (BitVec.setWidth_eq_append (by decide)).symm

/-- Two bytes with zeros above them: the lower one, and the upper one shifted to its place. -/
theorem zero_append_bytes (hi lo : Byte) :
    (0 : Half) ++ hi ++ lo = (lo.zeroExtend 32 ||| hi.zeroExtend 32 <<< 8 : Word) := by
  calc (0 : Half) ++ hi ++ lo = (hi ++ lo).setWidth 32 := by
        rw [BitVec.append_assoc, BitVec.setWidth_eq_append (by decide)]; rfl
    _ = hi.setWidth 32 <<< 8 ||| lo.setWidth 32 := BitVec.setWidth_append_eq_shiftLeft_setWidth_or
    _ = _ := BitVec.or_comm _ _

/-- The inputs stand in the four lowest bits (R61). -/
theorem inputsWord_bits (i : Inputs) :
    (inputsWord i).getLsbD 0 = i.rxActive ∧ (inputsWord i).getLsbD 1 = i.txActive ∧
    (inputsWord i).getLsbD 2 = i.txFrameAlreadyDequeued ∧ (inputsWord i).getLsbD 3 = i.gie := by
  unfold inputsWord
  simp only [BitVec.getLsbD_append]
  simp

/-- Above the four inputs there are zeros (R61). -/
theorem inputsWord_reserved (i : Inputs) : (inputsWord i).extractLsb' 4 28 = 0 := by
  unfold inputsWord
  iterate 4 rw [BitVec.extractLsb'_append_eq_of_le (by decide)]
  exact BitVec.extractLsb'_eq_self

/-- An "init" register of a clock that runs (R61). -/
theorem initOnly_of_init {s : State} (h : s.clock.clockInitialised = true) (v : Word) : initOnly s v = .ok v :=
  if_pos h

/-- An "init" register before the first `INIT` (R34, R61). -/
theorem initOnly_of_not_init {s : State} (h : s.clock.clockInitialised = false) (v : Word) :
    initOnly s v = .error .notInitialised := by
  unfold initOnly
  rw [h]
  rfl

/-- TRIGGER after a `SETTRIGGER` (R61). -/
theorem readRegister_trigger_of_written {s : State} (h : s.clock.triggerWritten = true) (c : Caller) :
    readRegister c 0x1C s = .ok s.clock.trigger :=
  if_pos h

/-- TRIGGER before any `SETTRIGGER` (R26, R61). -/
theorem readRegister_trigger_of_unwritten {s : State} (h : s.clock.triggerWritten = false) (c : Caller) :
    readRegister c 0x1C s = .error .triggerUnwritten :=
  if_neg (by simp [h])

/-- Settles O10: the map as it stands, with the packed words taken apart. -/
theorem windowRegisterMap : Obligations.WindowRegisterMap := by
  intro s c
  obtain ⟨hrx, htx, hdq, hgie⟩ := inputsWord_bits s.inputs
  refine ⟨rfl, rfl, rfl, rfl, fun hinit => ?_, fun hinit => ?_, fun hw => readRegister_trigger_of_written hw c,
    fun hw => readRegister_trigger_of_unwritten hw c, congrArg Except.ok (enableFlagsWord_eq s),
    congrArg Except.ok (zero_append_bytes _ _), congrArg Except.ok (zero_append_bytes _ _), rfl,
    inputsWord s.inputs, rfl, hrx, htx, hdq, hgie, inputsWord_reserved s.inputs⟩
  · have hread (v : Word) : initOnly s v = .ok v := initOnly_of_init hinit v
    exact ⟨hread _, hread _, hread _, (hread _).trans (congrArg Except.ok (subtickWord_eq s))⟩
  · have hread (v : Word) : initOnly s v = .error .notInitialised := initOnly_of_not_init hinit v
    exact ⟨hread _, hread _, hread _, hread _⟩

/-! ### The fields of STATUS -/

/-- STATUS[11:3], a bit each (R62). -/
theorem statusWord_bits (a : Agent) (s : State) :
    (statusWord a s).getLsbD 3 = s.arbiter.rxOn ∧ (statusWord a s).getLsbD 4 = s.arbiter.dbgLed ∧
    (statusWord a s).getLsbD 5 = s.clock.cmpPending ∧ (statusWord a s).getLsbD 6 = s.clock.cmpIe ∧
    (statusWord a s).getLsbD 7 = s.clock.clockInitialised ∧ (statusWord a s).getLsbD 8 = s.clock.triggerWritten ∧
    (statusWord a s).getLsbD 9 = (s.clock.isrPhase == .triggerCallbackDue) ∧
    (statusWord a s).getLsbD 10 = s.fault.isSome ∧ (statusWord a s).getLsbD 11 = !(s.cont a).isEmpty := by
  unfold statusWord
  simp only [BitVec.getLsbD_append]
  simp

/-- STATUS[2:0]. -/
theorem statusWord_compareState (a : Agent) (s : State) :
    (statusWord a s).extractLsb' 0 3 = statusCompareState s := by
  unfold statusWord
  exact BitVec.extractLsb'_append_eq_right

/-- STATUS[15:12], above the ten lower fields. -/
theorem statusWord_reservedLow (a : Agent) (s : State) : (statusWord a s).extractLsb' 12 4 = 0 := by
  unfold statusWord
  iterate 10 rw [BitVec.extractLsb'_append_eq_of_le (by decide)]
  exact BitVec.extractLsb'_append_eq_right

/-- STATUS[23:16]. -/
theorem statusWord_faultCode (a : Agent) (s : State) : (statusWord a s).extractLsb' 16 8 = statusFaultCode s := by
  unfold statusWord
  iterate 11 rw [BitVec.extractLsb'_append_eq_of_le (by decide)]
  exact BitVec.extractLsb'_append_eq_right

/-- STATUS[31:24]. -/
theorem statusWord_reservedHigh (a : Agent) (s : State) : (statusWord a s).extractLsb' 24 8 = 0 := by
  unfold statusWord
  iterate 12 rw [BitVec.extractLsb'_append_eq_of_le (by decide)]
  exact BitVec.extractLsb'_eq_self

/-- Every field is 0 at power-on (R46). -/
theorem statusWord_reset (a : Agent) : statusWord a State.reset = 0 := by
  cases a <;> rfl

/-- Settles O11: the fields one by one; the encodings of R27 and R201 are the tables as they stand. -/
theorem statusFields : Obligations.StatusFields := by
  refine ⟨fun s a => ?_, statusWord_reset, ⟨rfl, rfl, rfl, rfl⟩, rfl, rfl, rfl, rfl, rfl, rfl, rfl, rfl, rfl, rfl, rfl,
    rfl, rfl, rfl⟩
  obtain ⟨hrx, hled, hpend, hie, hinit, hwritten, hdue, hfault, hbusy⟩ := statusWord_bits a s
  refine ⟨statusWord_compareState a s, hrx, hled, hpend, hie, hinit, hwritten, ?_, ?_, ?_, statusWord_reservedLow a s,
    fun c hc => ?_, fun hn => ?_, statusWord_reservedHigh a s⟩
  · rw [hdue, beq_iff_eq]
  · rw [hfault, Option.isSome_iff_ne_none]
  · rw [hbusy]
    simp
  · rw [statusWord_faultCode]
    simp only [statusFaultCode, hc]
  · rw [statusWord_faultCode]
    simp only [statusFaultCode, hn]

end Sys2Proof.Machine
end

section
/-! PROOFS. One service of both events: the rollover callback, then the trigger callback (R72, R126). -/

namespace Sys2Proof.Machine

/-- Phase A does not fault (R121). -/
@[simp] theorem takeCompareInterrupt_fault (s : State) : (takeCompareInterrupt s).fault = s.fault := by
  rw [takeCompareInterrupt_frame]

/-- Phase B emits the trigger callback (R122). -/
theorem returnFromInterrupt_out (s : State) : (returnFromInterrupt s).out = s.out ++ [.cbTrigger] := rfl

/-- Where the sequencer has no micro-step left and owes no callback, its step is phase A, if it may start (R211). -/
theorem step_isr_idle {s : State} (hf : s.fault = none) (hc : s.conts.isrCmp = []) (hp : s.clock.isrPhase = .idle) :
    step (s.schedule .isr) = whenEnabled (isrMayStart s) .isrCmp (.next (takeCompareInterrupt s)) := by
  rw [step_schedule hf]
  simp [runStimulus, isrStep, hc, hp]

/-- Where it owes the trigger callback, its step is phase B (R122). -/
theorem step_isr_due {s : State} (hf : s.fault = none) (hc : s.conts.isrCmp = [])
    (hp : s.clock.isrPhase = .triggerCallbackDue) : step (s.schedule .isr) = .next (returnFromInterrupt s) := by
  rw [step_schedule hf]
  simp [runStimulus, isrStep, hc, hp]

/-- Settles O59: phase A emits the rollover callback and owes the other, so the sequencer's next step is phase B. -/
theorem rolloverCallbackFirst : Obligations.RolloverCallbackFirst := by
  intro s t hf hc hp hs hstep
  obtain ⟨-, hA⟩ := whenEnabled_next ((step_isr_idle hf hc hp).symm.trans hstep)
  cases hA
  have hout : (takeCompareInterrupt s).out = s.out ++ [.cbRollover] := by
    rw [takeCompareInterrupt_out, hs]
    rfl
  have hdue : (takeCompareInterrupt s).clock.isrPhase = .triggerCallbackDue := by
    rw [takeCompareInterrupt_clock, hs]
  refine ⟨hout, _, step_isr_due ?_ ?_ hdue, ?_, rfl⟩
  · rw [takeCompareInterrupt_fault, hf]
  · rw [takeCompareInterrupt_conts, hc]
  · rw [returnFromInterrupt_out, hout, List.append_assoc]
    rfl

end Sys2Proof.Machine
end

section
/-! PROOFS. Encoding (30_encoding.md): a word is a row's command exactly when its opcode is the row's and the fields the row's format requires to be zero are zero; decoding and encoding are inverse (R80 to R86, R91). -/

namespace Sys2Proof

/-! ### A row's mask and match -/

/-- R80, R86: the bits a row fixes have the row's values exactly when the opcode is the row's and the reserved fields are zero. -/
theorem and_mask_eq_pattern_iff (w : Command) (o : Opcode) :
    w &&& o.mask = o.pattern ↔ o.code = opField w ∧ reservedZero o.format w = true := by
  have h8 : ∀ b : Byte, b &&& 255#8 = b := fun _ => BitVec.and_allOnes
  have h16 : ∀ h : Half, h &&& 65535#16 = h := fun _ => BitVec.and_allOnes
  have h32 : ∀ v : Word, v &&& 4294967295#32 = v := fun _ => BitVec.and_allOnes
  rw [eq_comm (a := o.code), Opcode.mask_eq, Opcode.pattern]
  conv => lhs; rw [← packFields_fields w]
  cases o.format <;> simp [packFields_and, packFields_inj, h8, h16, h32, reservedZero, and_assoc]

/-! ### Operands and fields -/

/-- R80: a command's word has zeros in the fields its format does not use. -/
theorem reservedZero_encode (i : Instr) : reservedZero i.opcode.format (encode i) = true := by
  cases i <;> simp [encode, reservedZero, Instr.opcode, Opcode.format, Instr.b8, Instr.h16, Instr.w32]

/-- R82: the operands a row reads from a command's word are the command's. -/
theorem operands_encode (i : Instr) : operands i.opcode (encode i) = i := by
  cases i <;> simp [encode, operands, Instr.opcode, Instr.b8, Instr.h16, Instr.w32]

theorem b8_operands {o : Opcode} {w : Command} (h : reservedZero o.format w = true) :
    (operands o w).b8 = b8Field w := by
  cases o <;> simp_all [operands, Instr.b8, reservedZero, Opcode.format]

theorem h16_operands {o : Opcode} {w : Command} (h : reservedZero o.format w = true) :
    (operands o w).h16 = h16Field w := by
  cases o <;> simp_all [operands, Instr.h16, reservedZero, Opcode.format]

theorem w32_operands {o : Opcode} {w : Command} (h : reservedZero o.format w = true) :
    (operands o w).w32 = w32Field w := by
  cases o <;> simp_all [operands, Instr.w32, reservedZero, Opcode.format]

/-- R80, R85: a word of a row whose reserved fields are zero is the word of the command its fields state. -/
theorem encode_operands {o : Opcode} {w : Command} (hop : o.code = opField w)
    (hz : reservedZero o.format w = true) : encode (operands o w) = w := by
  rw [encode, opcode_operands, b8_operands hz, h16_operands hz, w32_operands hz, hop, packFields_fields]

/-! ### What the decoder answers -/

/-- R85: no row is selected exactly when the byte is no row's opcode. -/
theorem Opcode.ofByte_eq_none (b : Byte) : Opcode.ofByte b = none ↔ ∀ o ∈ Opcode.all, o.code ≠ b := by
  simp only [Option.eq_none_iff_forall_ne_some, ne_eq, Opcode.ofByte_eq_some, Opcode.mem_all, true_imp_iff]

theorem decode_of_ofByte_none {w : Command} (h : Opcode.ofByte (opField w) = none) :
    decode w = .error .illegalOpcode := by
  simp only [decode, h]

/-- R81, R86: where a row is selected, its reserved fields decide. -/
theorem decode_of_code {o : Opcode} {w : Command} (h : o.code = opField w) :
    decode w = if reservedZero o.format w then .ok (operands o w) else .error .reservedField := by
  simp only [decode, (Opcode.ofByte_eq_some _ _).mpr h]

/-- A word's opcode is in no row or in one. -/
theorem opField_cases (w : Command) : Opcode.ofByte (opField w) = none ∨ ∃ o : Opcode, o.code = opField w := by
  cases h : Opcode.ofByte (opField w) with
  | none => exact .inl rfl
  | some o => exact .inr ⟨o, (Opcode.ofByte_eq_some _ _).mp h⟩

/-- R81, R82: a word decodes to the command its fields state for the row it is a word of, and to no other. -/
theorem decode_eq_ok_iff (w : Command) (i : Instr) :
    decode w = .ok i ↔
      i.opcode.code = opField w ∧ reservedZero i.opcode.format w = true ∧ operands i.opcode w = i := by
  constructor
  · intro h
    obtain hnone | ⟨o, ho⟩ := opField_cases w
    · simp [decode_of_ofByte_none hnone] at h
    · rw [decode_of_code ho] at h
      split at h
      next hz =>
        cases h
        simpa only [opcode_operands, and_true] using ⟨ho, hz⟩
      next => cases h
  · rintro ⟨ho, hz, hi⟩
    rw [decode_of_code ho, if_pos hz, hi]

theorem decode_eq_illegalOpcode_iff (w : Command) :
    decode w = .error .illegalOpcode ↔ ∀ o ∈ Opcode.all, o.code ≠ opField w := by
  rw [← Opcode.ofByte_eq_none]
  refine ⟨fun h => ?_, decode_of_ofByte_none⟩
  obtain hnone | ⟨o, ho⟩ := opField_cases w
  · exact hnone
  · rw [decode_of_code ho] at h
    split at h <;> cases h

theorem decode_eq_reservedField_iff (w : Command) :
    decode w = .error .reservedField ↔ ∃ o : Opcode, o.code = opField w ∧ ¬ reservedZero o.format w = true := by
  constructor
  · intro h
    obtain hnone | ⟨o, ho⟩ := opField_cases w
    · simp [decode_of_ofByte_none hnone] at h
    · refine ⟨o, ho, fun hz => ?_⟩
      simp [decode_of_code ho, hz] at h
  · rintro ⟨o, ho, hz⟩
    rw [decode_of_code ho, if_neg hz]

/-! ### The obligations -/

/-- Settles O1: a command's word has the command's row's opcode, zero reserved fields and the command's operands. -/
theorem decodeOfEncode : Obligations.DecodeOfEncode := fun i =>
  (decode_eq_ok_iff _ _).mpr ⟨(opField_packFields ..).symm, reservedZero_encode i, operands_encode i⟩

/-- Settles O2: what a word decodes to is its row and its fields, and those are the whole word. -/
theorem encodeOfDecode : Obligations.EncodeOfDecode := by
  intro w i h
  obtain ⟨hop, hz, hi⟩ := (decode_eq_ok_iff w i).mp h
  rw [← hi, encode_operands hop hz]

/-- Settles O3: both sides say that the opcode is the row's and the reserved fields are zero. -/
theorem decodeFollowsMatchAndMask : Obligations.DecodeFollowsMatchAndMask := by
  refine ⟨fun w o => ?_, by decide, by decide, by decide⟩
  simp only [decode_eq_ok_iff, and_mask_eq_pattern_iff, opcode_operands, and_true]

/-- Settles O4: the decoder answers the opcode's error where no row is selected, and the field's where the row's mask and match disagree with the word. -/
theorem decodeRejectsByName : Obligations.DecodeRejectsByName := by
  refine fun w => ⟨decode_eq_illegalOpcode_iff w, (decode_eq_reservedField_iff w).trans (exists_congr fun o => ?_)⟩
  rw [ne_eq, and_mask_eq_pattern_iff]
  have hmem := o.mem_all
  tauto

/-- Settles O5: the decoder, run on the six words. -/
theorem encodingExamples : Obligations.EncodingExamples := by
  unfold Obligations.EncodingExamples
  decide

end Sys2Proof
end

section
/-! PROOFS. Stated commands (R84, R88): a command stated with plain numbers is a command exactly when the numbers fit its row's fields, and is then the command of the word those fields make; what the assembler answers on a line that names a row and states its numbers. -/

namespace Sys2Proof

/-! ### The word of a stated command -/

/-- The word the operand fields of a stated command make with its row's opcode (R80, R88). -/
def RawCommand.word (c : RawCommand) : Command := packFields c.opcode.code c.fields.1 c.fields.2.1 c.fields.2.2

theorem RawCommand.toInstr_eq_none_iff (c : RawCommand) : c.toInstr = none ↔ c.wellFormed = false := by
  simp [RawCommand.toInstr]

theorem RawCommand.toInstr_eq_some_iff (c : RawCommand) (i : Instr) :
    c.toInstr = some i ↔ c.wellFormed = true ∧ operands c.opcode c.word = i := by
  simp [RawCommand.toInstr, RawCommand.word]

/-- R88: the shapes of a well-formed command, one per format. -/
theorem RawCommand.wellFormed_iff (c : RawCommand) :
    c.wellFormed = true ↔
    (c.opcode.format = .f0 ∧ c.immediates = []) ∨
    (c.opcode.format = .fb ∧ ∃ v, v < 2 ^ 8 ∧ c.immediates = [v]) ∨
    (c.opcode.format = .fw ∧ ∃ v, v < 2 ^ 32 ∧ c.immediates = [v]) ∨
    (c.opcode.format = .fwh ∧ ∃ v h, v < 2 ^ 32 ∧ h < 2 ^ 16 ∧ c.immediates = [v, h]) := by
  constructor
  · unfold RawCommand.wellFormed
    split <;> simp_all
  · rintro (⟨hf, hi⟩ | ⟨hf, v, hv, hi⟩ | ⟨hf, v, hv, hi⟩ | ⟨hf, v, h, hv, hh, hi⟩) <;>
      simp_all [RawCommand.wellFormed]

/-- R80, R88: immediates go to no field that the format requires to be zero. -/
theorem RawCommand.reservedZero_word (c : RawCommand) : reservedZero c.opcode.format c.word = true := by
  unfold RawCommand.word RawCommand.fields
  cases c.opcode.format <;> rcases c.immediates with _ | ⟨v, _ | ⟨h, vs⟩⟩ <;> simp [reservedZero]

/-! ### Stating a command and reading it back -/

/-- The numbers a command states are its operands, which go back to their fields. -/
theorem Instr.fields_toRaw (i : Instr) : i.toRaw.fields = (i.b8, i.h16, i.w32) := by
  cases i <;> simp [Instr.toRaw, RawCommand.fields, Instr.opcode, Opcode.format, Instr.b8, Instr.h16, Instr.w32]

theorem Instr.opcode_toRaw (i : Instr) : i.toRaw.opcode = i.opcode := by
  unfold Instr.toRaw
  split <;> rfl

theorem Instr.word_toRaw (i : Instr) : i.toRaw.word = encode i := by
  rw [RawCommand.word, i.fields_toRaw, i.opcode_toRaw, encode]

/-- A command stated with its own numbers is that command. -/
theorem Instr.toInstr_toRaw (i : Instr) : i.toRaw.toInstr = some i :=
  (RawCommand.toInstr_eq_some_iff _ _).mpr
    ⟨i.wellFormed_all, by rw [i.opcode_toRaw, i.word_toRaw, operands_encode]⟩

/-- R88: a well-formed command states the numbers it was stated with, since each is below the bound of its field. -/
theorem RawCommand.toRaw_operands {c : RawCommand} (h : c.wellFormed = true) : (operands c.opcode c.word).toRaw = c := by
  obtain ⟨o, vs⟩ := c
  have hz := RawCommand.reservedZero_word ⟨o, vs⟩
  simp only [Instr.toRaw, opcode_operands, b8_operands hz, h16_operands hz, w32_operands hz]
  obtain ⟨hf, hi⟩ | ⟨hf, v, hv, hi⟩ | ⟨hf, v, hv, hi⟩ | ⟨hf, v, h, hv, hh, hi⟩ := (RawCommand.wellFormed_iff _).mp h <;>
    simp_all [RawCommand.word, RawCommand.fields]

/-! ### A line of the assembler -/

namespace Machine

/-- R88: where a line names a row and its immediates are numbers, the stated command decides. -/
theorem assembleChars_of_parts {line : List Char} {o : Opcode} {vs : List Nat} (hne : codePart line ≠ [])
    (ho : opcodeNamed ((codePart line).takeWhile (· != ' ')) = some o)
    (hvs : immediatesOf ((codePart line).dropWhile (· != ' ')) = some vs) :
    assembleChars line =
      (RawCommand.toInstr ⟨o, vs⟩).elim (.error .doesNotFit) (fun i => .ok (some i)) := by
  unfold assembleChars
  split
  next h => exact absurd h hne
  next =>
    simp only [ho, hvs]
    cases RawCommand.toInstr ⟨o, vs⟩ <;> rfl

theorem opcodeNamed_mnemonic (o : Opcode) : opcodeNamed (mnemonic o).toList = some o := by cases o <;> decide

end Machine

/-- Settles O60: a stated command is its row's command with the operands of the word its numbers make. -/
theorem statedCommandsAreRead : Obligations.StatedCommandsAreRead := by
  refine ⟨Instr.toInstr_toRaw, fun c => c.toInstr_eq_none_iff.symm, fun c => ?_, fun c i h => ?_,
    fun line o vs hne ho hvs => ?_, Machine.opcodeNamed_mnemonic, rfl⟩
  · rw [← RawCommand.wellFormed_iff, ← Option.ne_none_iff_isSome, ne_eq, RawCommand.toInstr_eq_none_iff,
      Bool.not_eq_false]
  · obtain ⟨hwf, rfl⟩ := (c.toInstr_eq_some_iff i).mp h
    exact RawCommand.toRaw_operands hwf
  · rw [Machine.assembleChars_of_parts hne ho hvs]
    exact ⟨fun h => by rw [h]; rfl, fun i h => by rw [h]; rfl⟩

end Sys2Proof
end

section
/-! PROOFS. Issuing the clock commands (R103, R105 to R112): the order of the checks of an issue, and what each single-step command answers. -/

namespace Sys2Proof.Machine

/-! ### The order of the checks -/

/-- Check (1): an issuer with micro-steps left is busy, whatever the body (R103). -/
theorem prologue_busy {s : State} (h : ¬Ready s) (clock : Bool) (body : State → State) :
    prologue clock body s = s.raise .busy := by
  have hb : s.busy = true := by simpa using mt (busy_eq_false_iff s).1 h
  simp [prologue, hb]

/-- Check (3): a ready issuer's clock command before the clock is initialised (R103). -/
theorem prologue_notInitialised {s : State} (h : Ready s) (hc : s.clock.clockInitialised = false)
    (body : State → State) : prologue true body s = s.raise .notInitialised := by
  simp [prologue, (busy_eq_false_iff s).2 h, hc]

/-- A clock command before the clock is initialised (R103 (3)). -/
theorem exec_notInitialised {i : Instr} {s : State} (h : Ready s) (hi : isClockCommand i = true)
    (hc : s.clock.clockInitialised = false) : exec i s = .next (s.raise .notInitialised) := by
  rw [exec_eq, hi, prologue_notInitialised h hc]

/-- An issue that faults is not latched (log 12). -/
theorem latchHi_raise (s : State) (e : FaultCode) (c : Caller) (v : Word) :
    (s.raise e).latchHi c v = s.raise e := rfl

/-- A caller with micro-steps left is refused whatever the word: a word that is no command meets check (1) too (R103). -/
theorem issue_busy {s : State} {c : Caller} (h : s.cont c.agent ≠ []) (hi : Word) :
    issue c hi s = .next ((s.asCaller c).raise .busy) := by
  have hr : ¬Ready (s.asCaller c) := by simpa [Ready] using h
  cases hd : decode (joinHalves hi (s.cmdLo c)) with
  | ok i => rw [issue_of_decode hd, exec_eq, prologue_busy hr, onNext, latchHi_raise]
  | error e => simp only [issue, hd, command, prologue_busy hr]

/-- Check (2): a ready caller's word that is no command raises the decoder's reason (R81, R103). -/
theorem issue_of_decode_error {s : State} {c : Caller} {hi : Word} {e : DecodeError} (h : s.cont c.agent = [])
    (hd : decode (joinHalves hi (s.cmdLo c)) = .error e) :
    issue c hi s = .next ((s.asCaller c).raise (decodeFault e)) := by
  have hr : Ready (s.asCaller c) := by simpa [Ready] using h
  simp only [issue, hd, command, prologue_ready hr (clock := false) nofun]

/-- Check (3) at the window: a ready caller's clock command before the clock is initialised (R103). -/
theorem issue_notInitialised {s : State} {c : Caller} {hi : Word} {i : Instr} (h : s.cont c.agent = [])
    (hd : decode (joinHalves hi (s.cmdLo c)) = .ok i) (hi' : isClockCommand i = true)
    (hc : s.clock.clockInitialised = false) :
    issue c hi s = .next ((s.asCaller c).raise .notInitialised) := by
  have hr : Ready (s.asCaller c) := by simpa [Ready] using h
  rw [issue_of_decode hd, exec_notInitialised hr hi' hc, onNext, latchHi_raise]

/-- Settles O8: the step is the issue, and the issue meets one check after the other. -/
theorem issueCheckOrder : Obligations.IssueCheckOrder := by
  intro s c hi hf hm
  rw [step_access hf hm, accessStep_writeHi]
  exact ⟨fun h => issue_busy h hi, issue_of_decode_error, issue_of_decode_error,
    fun i h hd hlo hhi => issue_notInitialised h hd ((isClockCommand_iff i).2 ⟨hlo, hhi⟩)⟩

/-! ### The single-step commands -/

/-- A command the prologue lets run answers what its body makes of the state. -/
theorem exec_of_body {i : Instr} {s t : State} (h : Ready s)
    (hc : isClockCommand i = true → s.clock.clockInitialised = true) (ht : bodyOf i s = t) :
    exec i s = .next t := by
  rw [exec_ready h hc, ht]

/-- Settles O14: `INIT` is no command the clock check speaks of, and its body writes the ten fields. -/
theorem initResult : Obligations.InitResult := fun _ hr => exec_of_body hr nofun rfl

/-- Settles O15: the body of `RESET` is the fault or the body of `INIT`. -/
theorem resetResult : Obligations.ResetResult := fun _ hr =>
  ⟨fun hg => exec_of_body hr nofun (resetBody_of_not_gie (by simp [hg])),
    fun hg => exec_of_body hr nofun (resetBody_of_gie hg)⟩

/-- Settles O16: the body tests the value against the count. -/
theorem setRolloverResult : Obligations.SetRolloverResult := fun _ _ hr =>
  ⟨exec_notInitialised hr rfl, fun hc =>
    ⟨fun hlt => exec_of_body hr (fun _ => hc) (if_pos hlt),
      fun hle => exec_of_body hr (fun _ => hc) (if_neg (Nat.not_lt.2 hle))⟩⟩

/-- Settles O17: the body tests the compare state, then the range. -/
theorem setCountResult : Obligations.SetCountResult := fun _ _ hr =>
  ⟨exec_notInitialised hr rfl, fun hc =>
    ⟨fun hs => exec_of_body hr (fun _ => hc) (if_pos hs),
      fun hs hle => exec_of_body hr (fun _ => hc) ((if_neg (not_not.2 hs)).trans (if_neg (Nat.not_lt.2 hle))),
      fun hs hlt => exec_of_body hr (fun _ => hc) ((if_neg (not_not.2 hs)).trans (if_pos hlt))⟩⟩

/-- Settles O18: `GETCOUNT` has no further check, `GETTRIGGER` that of the written flag. -/
theorem getResults : Obligations.GetResults := fun _ hr =>
  ⟨fun hc => ⟨exec_notInitialised hr rfl hc, exec_notInitialised hr rfl hc⟩, fun hc =>
    ⟨exec_of_body hr (fun _ => hc) rfl,
      fun hw => exec_of_body hr (fun _ => hc) (if_pos hw),
      fun hw => exec_of_body hr (fun _ => hc) (if_neg (by simp [hw]))⟩⟩

/-- What a trigger above the count arms: the trigger itself (R111). -/
theorem armed_of_lt {t count : Word} (h : count < t) (rollover : Word) :
    armedState t count = .trigger ∧ armedCompare t count rollover = t :=
  ⟨if_pos h, if_pos h⟩

/-- What trigger 0 arms, at every count: both events at the rollover (R111, C1). -/
theorem armed_zero (count rollover : Word) :
    armedState 0 count = .rolloverAndTrigger ∧ armedCompare 0 count rollover = rollover := by
  have h : ¬count < 0 := BitVec.not_lt_zero
  exact ⟨(if_neg h).trans (if_pos rfl), if_neg h⟩

/-- What a trigger above 0 that the count has reached arms: the rollover first (R111). -/
theorem armed_of_le {t count : Word} (hpos : t ≠ 0) (h : ¬count < t) (rollover : Word) :
    armedState t count = .rolloverAndArmTrigger ∧ armedCompare t count rollover = rollover :=
  ⟨(if_neg h).trans (if_neg hpos), if_neg h⟩

/-- The body of `SETTRIGGER` below the rollover, with what it arms named (R111). -/
theorem setTriggerBody_of_armed {s : State} {t v : Word} {cs : CompareState} (h : t < s.clock.rollover)
    (ha : armedState t s.clock.count = cs ∧ armedCompare t s.clock.count s.clock.rollover = v) :
    setTriggerBody t s = { s with clock := { s.clock with
      trigger := t, triggerWritten := true, compareState := cs, compare := v } } := by
  obtain ⟨rfl, rfl⟩ := ha
  exact if_pos h

/-- Settles O19: the range is tested, then the three ways of arming are told apart. -/
theorem setTriggerResult : Obligations.SetTriggerResult := by
  intro s t hr
  refine ⟨exec_notInitialised hr rfl, fun hc => ⟨fun hle => ?_, fun hlt hup => ?_, fun hlt hz => ?_,
    fun hlt hpos hle => ?_⟩⟩ <;> apply exec_of_body hr (fun _ => hc)
  · exact if_neg (Nat.not_lt.2 hle)
  · exact setTriggerBody_of_armed hlt (armed_of_lt hup _)
  · subst hz
    exact setTriggerBody_of_armed hlt (armed_zero _ _)
  · exact setTriggerBody_of_armed hlt (armed_of_le (by rintro rfl; cases hpos) (Nat.not_lt.2 hle) _)

/-- Settles O20: the body of `CANCELTRIGGER` has no check of its own. -/
theorem cancelTriggerResult : Obligations.CancelTriggerResult := fun _ hr =>
  ⟨exec_notInitialised hr rfl, fun hc => exec_of_body hr (fun _ => hc) rfl⟩

end Sys2Proof.Machine
end

section
/-! PROOFS. The time base (R100 to R102): one tick in each case, many ticks in closed form, and the tick that brings a match. -/

namespace Sys2Proof.Machine

/-! ### One tick -/

/-- TIMER has a step exactly when the clock is initialised (R100). -/
theorem step_tick {s : State} (hf : s.fault = none) :
    step (s.schedule .tick) = whenEnabled s.clock.clockInitialised .timer (.next (timerTick s)) := by
  rw [step_schedule hf]
  simp [runStimulus, timerRuns, hf]

/-- A forced delay absorbs the tick (R102). -/
theorem tickClock_of_delay {c : Clock} (p : Params) (h : 0 < c.delayHold) :
    tickClock p c = { c with delayHold := c.delayHold - 1 } := if_pos h

/-- Inside a period the sub-tick advances (R100). -/
theorem tickClock_of_inside {p : Params} {c : Clock} (hd : c.delayHold = 0)
    (h : c.subtick + 1 ≠ p.ticksPerBackoff) : tickClock p c = { c with subtick := c.subtick + 1 } :=
  (if_neg (by simp [hd])).trans (if_neg h)

/-- The last tick of a period ends it (R100). -/
theorem tickClock_of_boundary {p : Params} {c : Clock} (hd : c.delayHold = 0)
    (h : c.subtick + 1 = p.ticksPerBackoff) : tickClock p c = backoffElapsed c :=
  (if_neg (by simp [hd])).trans (if_pos h)

/-- The count that is reached is not the compare value: no match (R101). -/
theorem backoffElapsed_of_ne {c : Clock} (h : c.count + 1 ≠ c.compare) :
    backoffElapsed c = { c with subtick := 0, count := c.count + 1 } := by
  simp only [backoffElapsed, h, decide_false, Bool.or_false]

/-- The count that is reached is the compare value: a match (R101). -/
theorem backoffElapsed_of_eq {c : Clock} (h : c.count + 1 = c.compare) :
    backoffElapsed c = { c with subtick := 0, count := c.count + 1, cmpPending := true } := by
  simp only [backoffElapsed, h, decide_true, Bool.or_true]

/-- A tick is taken, and is the clock's. -/
theorem step_tick_of_clock {s : State} {c : Clock} (hf : s.fault = none) (hc : s.clock.clockInitialised = true)
    (ht : tickClock s.cfg s.clock = c) : step (s.schedule .tick) = .next { s with clock := c } := by
  rw [step_tick hf, hc, ← ht]
  rfl

/-- Settles O23: the step is the tick of the clock, which has one equation per case. -/
theorem timerTickResult : Obligations.TimerTickResult := by
  intro s hf
  refine ⟨fun hc => ?_, fun hc hd => ?_, fun hc hd hp => ?_, fun hc hd hp hm => ?_, fun hc hd hp hm => ?_⟩
  · rw [step_tick hf, hc]
    rfl
  · exact step_tick_of_clock hf hc (tickClock_of_delay _ hd)
  · exact step_tick_of_clock hf hc (tickClock_of_inside hd hp)
  · exact step_tick_of_clock hf hc ((tickClock_of_boundary hd hp).trans (backoffElapsed_of_ne hm))
  · exact step_tick_of_clock hf hc ((tickClock_of_boundary hd hp).trans (backoffElapsed_of_eq hm))

/-! ### Many ticks -/

/-- The clock, taken at a period boundary with no delay held, `q` whole periods and `r` ticks later (R100, R101). -/
def clockAfter (c : Clock) (q r : Nat) : Clock :=
  { c with
    count := c.count + BitVec.ofNat 32 q
    subtick := BitVec.ofNat 16 r
    cmpPending := c.cmpPending || decide (∃ j, j < q ∧ c.count + BitVec.ofNat 32 (j + 1) = c.compare) }

theorem clockAfter_zero {c : Clock} (h : c.subtick = 0) : clockAfter c 0 0 = c := by
  cases c
  cases h
  simp [clockAfter]

/-- The end of a period is told by its number of ticks: sub-ticks do not wrap before it (R7, R28). -/
theorem subtick_add_one_eq_iff (p : Params) {r : Nat} (h : r < p.ticksPerBackoff.toNat) :
    BitVec.ofNat 16 r + 1 = p.ticksPerBackoff ↔ r + 1 = p.ticksPerBackoff.toNat := by
  have hp := p.ticksPerBackoff.isLt
  rw [show BitVec.ofNat 16 r + 1 = BitVec.ofNat 16 (r + 1) from (BitVec.ofNat_add r 1).symm, ← BitVec.toNat_inj,
    BitVec.toNat_ofNat, Nat.mod_eq_of_lt (by omega)]

/-- One period more reaches one count more, which is where a match can be new (R101). -/
theorem backoffElapsed_clockAfter (c : Clock) (q r : Nat) :
    backoffElapsed (clockAfter c q r) = clockAfter c (q + 1) 0 := by
  have hcount : c.count + BitVec.ofNat 32 q + 1 = c.count + BitVec.ofNat 32 (q + 1) := by
    rw [BitVec.ofNat_add, ← BitVec.add_assoc]
    rfl
  simp only [backoffElapsed, clockAfter, hcount, Nat.exists_lt_succ_right, Bool.decide_or, Bool.or_assoc]
  rfl

/-- A tick goes on from `n` ticks to `n + 1` (R100). -/
theorem tickClock_clockAfter (p : Params) {c : Clock} (hd : c.delayHold = 0) (n : Nat) :
    tickClock p (clockAfter c (n / p.ticksPerBackoff.toNat) (n % p.ticksPerBackoff.toNat)) =
      clockAfter c ((n + 1) / p.ticksPerBackoff.toNat) ((n + 1) % p.ticksPerBackoff.toNat) := by
  have hpos : 0 < p.ticksPerBackoff.toNat := p.ticksPerBackoff_pos
  have hlt := Nat.mod_lt n hpos
  have hdm := Nat.mod_add_div n p.ticksPerBackoff.toNat
  have hend := subtick_add_one_eq_iff p hlt
  by_cases hb : n % p.ticksPerBackoff.toNat + 1 = p.ticksPerBackoff.toNat
  · have hnext : 0 + p.ticksPerBackoff.toNat * (n / p.ticksPerBackoff.toNat + 1) = n + 1 := by
      rw [Nat.mul_add_one]
      omega
    obtain ⟨hdiv, hmod⟩ := (Nat.div_mod_unique hpos).2 ⟨hnext, hpos⟩
    rw [hdiv, hmod, tickClock_of_boundary (by exact hd) (hend.2 hb), backoffElapsed_clockAfter]
  · obtain ⟨hdiv, hmod⟩ := (Nat.div_mod_unique (a := n + 1) (d := n / p.ticksPerBackoff.toNat)
      (c := n % p.ticksPerBackoff.toNat + 1) hpos).2 ⟨by omega, by omega⟩
    rw [hdiv, hmod, tickClock_of_inside (by exact hd) (mt hend.1 hb)]
    simp [clockAfter, BitVec.ofNat_add]

/-- From a period boundary with no delay held, `n` ticks are whole periods and a rest (R100). -/
theorem ticks_eq_clockAfter {s : State} (hs : s.clock.subtick = 0) (hd : s.clock.delayHold = 0) (n : Nat) :
    ticks n s = { s with
      clock := clockAfter s.clock (n / s.cfg.ticksPerBackoff.toNat) (n % s.cfg.ticksPerBackoff.toNat) } := by
  induction n with
  | zero => simp [ticks, clockAfter_zero hs]
  | succ n ih =>
    rw [ticks_succ, ih, ← tickClock_clockAfter s.cfg hd n]
    rfl

/-- Ticks within a forced delay only shorten it (R102). -/
theorem ticks_within_delay (s : State) (n : Nat) (h : n ≤ s.clock.delayHold) :
    ticks n s = { s with clock := { s.clock with delayHold := s.clock.delayHold - n } } := by
  induction n with
  | zero => rfl
  | succ n ih =>
    have hheld : 0 < s.clock.delayHold - n := by omega
    rw [ticks_succ, ih (by omega), timerTick, tickClock_of_delay _ hheld]
    simp [Nat.sub_sub]

/-- Settles O24: the delay's own ticks, and then, with none held, whole periods and a rest. -/
theorem ticksCountBackoffPeriods : Obligations.TicksCountBackoffPeriods := by
  refine ⟨ticks_within_delay, fun s n hs => ?_⟩
  rw [ticks_add, ticks_within_delay s _ le_rfl, Nat.sub_self,
    ticks_eq_clockAfter (s := { s with clock := { s.clock with delayHold := 0 } }) hs rfl]
  rfl

/-- The first match of a clock that stands `k` counts below its compare value is `k` periods away (R101). -/
theorem ticks_cmpPending_iff {s : State} (hs : s.clock.subtick = 0) (hd : s.clock.delayHold = 0)
    (hp : s.clock.cmpPending = false) {k : Nat} (hk : s.clock.count.toNat + k = s.clock.compare.toNat) (hpos : 0 < k)
    (n : Nat) : (ticks n s).clock.cmpPending = true ↔ k * s.cfg.ticksPerBackoff.toNat ≤ n := by
  have hP : 0 < s.cfg.ticksPerBackoff.toNat := s.cfg.ticksPerBackoff_pos
  have hcompare := s.clock.compare.isLt
  have hreach : ∀ j, j < k → (s.clock.count + BitVec.ofNat 32 (j + 1) = s.clock.compare ↔ j + 1 = k) := by
    intro j hj
    rw [← BitVec.toNat_inj, BitVec.toNat_add, BitVec.toNat_ofNat, Nat.add_mod_mod, Nat.mod_eq_of_lt (by omega)]
    omega
  rw [ticks_eq_clockAfter hs hd, ← Nat.le_div_iff_mul_le hP]
  simp only [clockAfter, hp, Bool.false_or, decide_eq_true_eq]
  constructor
  · rintro ⟨j, hj, hm⟩
    by_contra hlt
    have := (hreach j (by omega)).1 hm
    omega
  · intro hle
    exact ⟨k - 1, by omega, (hreach (k - 1) (by omega)).2 (by omega)⟩

/-! ### The tick that brings a match -/

/-- A command never sets the pending flag (R101, R105). -/
theorem BodyCase.cmpPending_eq_or {s t : State} {i : Instr} (h : BodyCase s i t) :
    t.clock.cmpPending = s.clock.cmpPending ∨ t.clock.cmpPending = false := by
  cases h with
  | init | reset => exact .inr rfl
  | _ => exact .inl rfl

/-- Phase A clears the pending flag (R120). -/
@[simp] theorem takeCompareInterrupt_cmpPending (s : State) : (takeCompareInterrupt s).clock.cmpPending = false := by
  rw [takeCompareInterrupt_clock]
  split <;> rfl

/-- A tick sets the pending flag only where the count advances to the compare value (R101). -/
theorem tickClock_cmpPending_eq_or (p : Params) (c : Clock) :
    (tickClock p c).cmpPending = c.cmpPending ∨
      c.delayHold = 0 ∧ c.subtick + 1 = p.ticksPerBackoff ∧ (tickClock p c).count = c.count + 1 ∧
        c.count + 1 = c.compare := by
  rcases tickClock_cases p c with ⟨-, ht⟩ | ⟨hd, hp, ht⟩ | ⟨-, -, ht⟩
  · simp [ht]
  · by_cases hm : c.count + 1 = c.compare
    · exact .inr ⟨hd, hp, by rw [ht]; rfl, hm⟩
    · rw [ht, backoffElapsed_of_ne hm]
      exact .inl rfl
  · simp [ht]

/-- Who sets the pending flag (R101). -/
theorem StepCase.cmpPending_eq_or {s t : State} (h : StepCase s t) :
    t.clock.cmpPending = s.clock.cmpPending ∨ t.clock.cmpPending = false ∨
      nextStimulus s = .tick ∧ s.clock.delayHold = 0 ∧ s.clock.subtick + 1 = s.cfg.ticksPerBackoff ∧
        t.clock.count = s.clock.count + 1 ∧ t.clock.count = s.clock.compare ∧ t.clock.compare = s.clock.compare := by
  cases h with
  | issue c hi i =>
    rcases (bodyOf_cases i ((consume s).asCaller c)).cmpPending_eq_or with hsame | hcleared
    · exact .inl (by simpa using hsame)
    · exact .inr (.inl (by simpa using hcleared))
  | micro a m rest =>
    rw [(runMicro_cases m a rest (consume s)).clock_frame]
    simp
  | tick _ hn =>
    rw [timerTick_clock, consume_cfg, consume_clock]
    rcases tickClock_cmpPending_eq_or s.cfg s.clock with hsame | ⟨hd, hp, hcount, hm⟩
    · exact .inl hsame
    · exact .inr (.inr ⟨hn, hd, hp, hcount, hcount.trans hm, tickClock_compare _ _⟩)
  | _ => simp

/-- Settles O51: every other step leaves the pending flag or clears it. -/
theorem matchOnlyOnIncrement : Obligations.MatchOnlyOnIncrement := by
  intro s t hstep hbefore hafter
  exact ((step_cases hstep).cmpPending_eq_or.resolve_left (by simp [hbefore, hafter])).resolve_left (by simp [hafter])

end Sys2Proof.Machine
end

section
/-! PROOFS. The compare sequencer (R120 to R126, R211): when it has a step, what phase A leaves, who writes the compare state, and the two services of a trigger armed behind the count. -/

namespace Sys2Proof.Machine

/-! ### Dispatch and outcomes -/

/-- The start condition, where no handler is in progress (R211). -/
theorem isrMayStart_iff {s : State} (hf : s.fault = none) (hp : s.clock.isrPhase = .idle) :
    isrMayStart s = true ↔ s.clock.clockInitialised = true ∧ s.clock.cmpPending = true ∧ s.clock.cmpIe = true ∧
      s.inputs.gie = true := by
  simp [isrMayStart, hf, hp, and_assoc]

/-- Settles O26: phase B is the step where the callback is owed; else the start condition decides. -/
theorem sequencerDispatch : Obligations.SequencerDispatch := by
  intro s hf hc
  refine ⟨step_isr_due hf hc, fun hp hinit hpend hie hgie => ?_, fun hp hno => ?_⟩
  · rw [step_isr_idle hf hc hp, (isrMayStart_iff hf hp).2 ⟨hinit, hpend, hie, hgie⟩]
    rfl
  · have hstart : isrMayStart s = false := by
      rw [Bool.eq_false_iff, ne_eq, isrMayStart_iff hf hp]
      rintro ⟨hinit, hpend, hie, hgie⟩
      simp [hinit, hpend, hie, hgie] at hno
    rw [step_isr_idle hf hc hp, hstart]
    rfl

/-- Settles O25: phase A writes the clock and the trace, each by the prior state. -/
theorem sequencerOutcomes : Obligations.SequencerOutcomes := by
  intro s
  refine ⟨fun h => ?_, fun h => ?_, fun h => ?_, fun h => ?_⟩ <;>
    rw [takeCompareInterrupt_frame, takeCompareInterrupt_clock, takeCompareInterrupt_out, h] <;>
    simp [CompareState.hasRollover]

/-! ### Who writes the compare state -/

/-- Only `INIT`, `RESET`, `SETTRIGGER` and `CANCELTRIGGER` write the compare state when they are issued (R125). -/
theorem BodyCase.compareState_eq_or {s t : State} {i : Instr} (h : BodyCase s i t) :
    t.clock.compareState = s.clock.compareState ∨ i = .init ∨ i = .reset ∨ (∃ v, i = .setTrigger v) ∨
      i = .cancelTrigger := by
  cases h with
  | init => exact .inr (.inl rfl)
  | reset => exact .inr (.inr (.inl rfl))
  | setTrigger v => exact .inr (.inr (.inr (.inl ⟨v, rfl⟩)))
  | cancelTrigger => exact .inr (.inr (.inr (.inr rfl)))
  | _ => exact .inl rfl

/-- Who writes the compare state (R125). -/
theorem StepCase.compareState_eq_or {s t : State} (h : StepCase s t) :
    t.clock.compareState = s.clock.compareState ∨
      issuedNext s = some .init ∨ issuedNext s = some .reset ∨ (∃ v, issuedNext s = some (.setTrigger v)) ∨
      issuedNext s = some .cancelTrigger ∨
      (nextStimulus s = .isr ∧ s.clock.cmpPending = true ∧ s.inputs.gie = true) := by
  cases h with
  | issue c hi i _ _ hd =>
    have hbody := (bodyOf_cases i ((consume s).asCaller c)).compareState_eq_or
    rw [State.asCaller_clock, consume_clock] at hbody
    simp only [hd, State.latchHi_clock, Option.some.injEq]
    tauto
  | micro a m rest =>
    rw [(runMicro_cases m a rest (consume s)).clock_frame]
    simp
  | phaseA _ hn hstart =>
    simp only [isrMayStart, Bool.and_eq_true] at hstart
    tauto
  | _ => simp

/-- Settles O52: the writers, where the state has changed. -/
theorem compareStateWriters : Obligations.CompareStateWriters := fun _ _ hstep =>
  (step_cases hstep).compareState_eq_or.resolve_left

/-! ### A trigger armed behind the count -/

/-- The clock `k` whole periods later, where the count does not wrap and a match is reached. -/
theorem ticks_whole_periods {s : State} (hs : s.clock.subtick = 0) (hd : s.clock.delayHold = 0)
    (hp : s.clock.cmpPending = false) {k : Nat} (hk : s.clock.count.toNat + k = s.clock.compare.toNat) (hpos : 0 < k) :
    ticks (k * s.cfg.ticksPerBackoff.toNat) s =
      { s with clock := { s.clock with count := s.clock.compare, cmpPending := true } } := by
  have hP : 0 < s.cfg.ticksPerBackoff.toNat := s.cfg.ticksPerBackoff_pos
  have hmatch := (ticks_cmpPending_iff hs hd hp hk hpos _).2 le_rfl
  have hcount : s.clock.count + BitVec.ofNat 32 k = s.clock.compare := by
    have := s.clock.compare.isLt
    rw [← BitVec.toNat_inj, BitVec.toNat_add, BitVec.toNat_ofNat, Nat.add_mod_mod, hk, Nat.mod_eq_of_lt this]
  rw [ticks_eq_clockAfter hs hd, Nat.mul_div_cancel _ hP, Nat.mul_mod_left] at hmatch ⊢
  simp only [clockAfter] at hmatch
  simp [clockAfter, hmatch, hcount, hs]

/-- No match is pending before the last of those ticks. -/
theorem ticks_cmpPending_before {s : State} (hs : s.clock.subtick = 0) (hd : s.clock.delayHold = 0)
    (hp : s.clock.cmpPending = false) {k : Nat} (hk : s.clock.count.toNat + k = s.clock.compare.toNat) (hpos : 0 < k)
    {n : Nat} (hn : n < k * s.cfg.ticksPerBackoff.toNat) : (ticks n s).clock.cmpPending = false := by
  rw [Bool.eq_false_iff, ne_eq, ticks_cmpPending_iff hs hd hp hk hpos]
  omega

/-- The whole service of a trigger match: phase A, then phase B (R121, R122). -/
theorem returnFromInterrupt_of_trigger {s : State} (h : s.clock.compareState = .trigger) :
    returnFromInterrupt (takeCompareInterrupt s) = { s with
      clock := { s.clock with
        cmpPending := false, compareState := .rollover, compare := s.clock.rollover, isrPhase := .idle }
      out := s.out ++ [.cbTrigger] } := by
  obtain ⟨-, onTrigger, -⟩ := sequencerOutcomes s
  rw [onTrigger h]
  rfl

/-- The state once the rollover match of an armed trigger has been served by phase A: at count 0, waiting for the trigger. -/
def rolloverServed (s : State) : State :=
  { s with
    clock := { s.clock with count := 0, cmpPending := false, compareState := .trigger, compare := s.clock.trigger }
    out := s.out ++ [.cbRollover] }

/-- Phase A of the rollover match leaves that state, wherever the match was reached (R121). -/
theorem takeCompareInterrupt_of_armed {s u : State} {v : Word} (h : s.clock.compareState = .rolloverAndArmTrigger)
    (hu : u = { s with clock := { s.clock with count := v, cmpPending := true } }) :
    takeCompareInterrupt u = rolloverServed s := by
  subst hu
  obtain ⟨-, -, -, onArm⟩ := sequencerOutcomes { s with clock := { s.clock with count := v, cmpPending := true } }
  exact onArm h

/-- Settles O27: each stage is a clock below its compare value, `rollover - count` counts before phase A and `trigger`
counts after it. -/
theorem armedTriggerFiresNextCycle : Obligations.ArmedTriggerFiresNextCycle := by
  intro s hcs hcmp hlt htrig hp hs hd
  have hk : s.clock.count.toNat + (s.clock.rollover.toNat - s.clock.count.toNat) = s.clock.compare.toNat := by
    rw [hcmp]
    exact Nat.add_sub_cancel' (Nat.le_of_lt hlt)
  have hkpos : 0 < s.clock.rollover.toNat - s.clock.count.toNat := Nat.sub_pos_of_lt hlt
  have htoTrigger : (rolloverServed s).clock.count.toNat + s.clock.trigger.toNat = s.clock.trigger.toNat :=
    Nat.zero_add _
  have hs1 := ticks_whole_periods hs hd hp hk hkpos
  have hs2 := ticks_whole_periods (s := rolloverServed s) hs hd rfl htoTrigger htrig
  refine ⟨_, _, rfl, by rw [hs1], fun n => ticks_cmpPending_before hs hd hp hk hkpos, rfl, ?_⟩
  rw [takeCompareInterrupt_of_armed hcs hs1]
  rw [show (rolloverServed s).cfg = s.cfg from rfl] at hs2
  rw [hs2, returnFromInterrupt_of_trigger rfl]
  exact ⟨rfl, rfl, fun n => ticks_cmpPending_before (s := rolloverServed s) hs hd rfl htoTrigger htrig,
    List.append_assoc _ _ _, rfl, rfl⟩

end Sys2Proof.Machine
end

section
/-! PROOFS. Realignment (R113 to R118): its arithmetic, its three steps, and the two races the source leaves open. -/

namespace Sys2Proof.Machine

/-! ### The arithmetic -/

/-- The offset of the recorded count in the first half of the cycle (R114). -/
theorem baseDelta_of_le {rc rollover : Word} (h : rc.toNat ≤ rollover.toNat / 2) : baseDelta rc rollover = rc.toNat :=
  if_neg (Nat.not_lt.2 h)

/-- The offset of a recorded count of the previous cycle (R114). -/
theorem baseDelta_of_lt {rc rollover : Word} (h : rollover.toNat / 2 < rc.toNat) :
    baseDelta rc rollover = rc.toNat - rollover.toNat := if_pos h

/-- The first test: the received sub-tick is below the one expected at the SFD (R114). -/
theorem rawDelay_neg_iff (p : Params) (rst : Half) :
    rawDelay p rst < 0 ↔ rst.toNat < p.ticksExpectedAtSfd.toNat := by
  unfold rawDelay
  omega

/-- The new count as the residue it is, whatever the delta (R114). -/
theorem realignCompute_eq (p : Params) (rc : Word) (rst : Half) (rollover count : Word) {delta d : Int}
    (hdelta : (if rawDelay p rst < 0 then baseDelta rc rollover - 1 else baseDelta rc rollover) = delta)
    (hd : (if rawDelay p rst < 0 then rawDelay p rst + p.ticksPerBackoff.toNat else rawDelay p rst) = d) :
    realignCompute p rc rst rollover count =
      ⟨delta, d.toNat, BitVec.ofInt 32 ((count.toNat - delta) % rollover.toNat)⟩ := by
  subst hdelta hd
  rfl

/-- Settles O21: the test of the sub-tick decides the correction, that of the half cycle the base of the delta; the new
count is a residue. -/
theorem realignArithmetic : Obligations.RealignArithmetic := by
  intro p rc rst rollover count hpos
  have hsfd : p.ticksExpectedAtSfd.toNat < p.ticksPerBackoff.toNat := p.sfd_lt_backoff
  have hrst := rst.isLt
  have hback := p.ticksPerBackoff.isLt
  have residue (v : Int) : 0 ≤ v % rollover.toNat ∧ v % rollover.toNat < rollover.toNat ∧
      (rollover.toNat : Int) ∣ v - v % rollover.toNat :=
    ⟨Int.emod_nonneg _ (by omega), Int.emod_lt_of_pos _ (by omega), Int.dvd_self_sub_emod⟩
  rcases Nat.lt_or_ge rst.toNat p.ticksExpectedAtSfd.toNat with hearly | hlate
  · have hneg := (rawDelay_neg_iff p rst).2 hearly
    obtain ⟨hlo, hhi, hdvd⟩ := residue (count.toNat - (baseDelta rc rollover - 1))
    have hd : 0 ≤ rawDelay p rst + p.ticksPerBackoff.toNat ∧ rawDelay p rst + p.ticksPerBackoff.toNat < 2 ^ 16 := by
      unfold rawDelay at hneg ⊢
      omega
    exact ⟨_, _, _, realignCompute_eq p rc rst rollover count (if_pos hneg) (if_pos hneg), hd.1, hd.2, hlo, hhi, hdvd,
      fun h => absurd hearly (Nat.not_lt.2 h), fun _ => ⟨rfl, fun h => by rw [baseDelta_of_le h],
        fun h => by rw [baseDelta_of_lt h]⟩⟩
  · have hnonneg := mt (rawDelay_neg_iff p rst).1 (Nat.not_lt.2 hlate)
    obtain ⟨hlo, hhi, hdvd⟩ := residue (count.toNat - baseDelta rc rollover)
    have hd : rawDelay p rst < 2 ^ 16 := by
      unfold rawDelay
      omega
    exact ⟨_, _, _, realignCompute_eq p rc rst rollover count (if_neg hnonneg) (if_neg hnonneg), not_lt.1 hnonneg, hd,
      hlo, hhi, hdvd, fun _ => ⟨rfl, baseDelta_of_le, baseDelta_of_lt⟩, fun h => absurd h (Nat.not_lt.2 hlate)⟩

/-! ### The three steps -/

/-- An agent with something left to run has a next micro-step, the head (R39). -/
theorem microStep_cons {a : Agent} {s : State} {m : MicroStep} {rest : List MicroStep} (h : s.cont a = m :: rest) :
    microStep a s = some (runMicro m a rest s) := by
  simp only [microStep, h]

/-- Steps 2 and 3 with nothing between them: the delay is added, the count and the result are written (R116, R117). -/
theorem runRemaining_realign {s : State} (h : Ready s) (d : Nat) (delta : Int) (k : Word) :
    runRemaining maxMicros s.issuer (s.setCont s.issuer [.realignDelay d, .realignWrite delta k]) =
      { s with
        clock := { s.clock with count := k, delayHold := s.clock.delayHold + d }
        result := BitVec.ofInt 32 delta } := by
  rw [maxMicros, runRemaining_cons (cont_setCont_issuer ..), runMicro, realignStep2,
    runRemaining_cons (cont_setCont_issuer ..), runMicro, realignStep3, runRemaining_nil (cont_setCont_issuer ..)]
  simp [State.setCont, forceDelay, wrap32, put_issuer_nil h]

/-- `REALIGN` step 1 that is allowed (R115). -/
theorem realignBody_of_idle {s : State} (h : s.inputs.txActive = false) (rc : Word) (rst : Half) :
    realignBody rc rst s = s.setCont s.issuer
      [.realignDelay (realignCompute s.cfg rc rst s.clock.rollover s.clock.count).delay,
       .realignWrite (realignCompute s.cfg rc rst s.clock.rollover s.clock.count).delta
        (realignCompute s.cfg rc rst s.clock.rollover s.clock.count).newCount] :=
  if_neg (by simp [h])

/-- Settles O22: step 1 leaves the two accesses, and those are run one after the other. -/
theorem realignResult : Obligations.RealignResult := fun _ _ _ hr =>
  ⟨exec_notInitialised hr rfl, fun hc =>
    ⟨fun htx => exec_of_body hr (fun _ => hc) (if_pos htx), fun htx =>
      ⟨_, exec_of_body hr (fun _ => hc) (realignBody_of_idle htx _ _), rfl, runRemaining_realign hr _ _ _⟩⟩⟩

/-! ### The races -/

/-- OffRequestStep2 with the receiver on and the activity inputs allowing it: off, flush and threshold clear (R142). -/
theorem offRequestStep2_of_on {s : State} (hon : s.arbiter.rxOn = true) (hoff : offAllowed s.inputs = true)
    (a : Agent) (rest : List MicroStep) :
    offRequestStep2 a rest s =
      State.setCont { s with
        arbiter := { s.arbiter with rxOn := false, dbgLed := false }
        out := s.out ++ [.hwRxOff, .hwFlushRxFifo, .hwClearRxThresholdIrq] } a rest := by
  rw [offRequestStep2, if_pos hoff, radioOffBody_eq]
  simp [receiverOff, hon, State.emit, State.setCont]

/-- Settles O33: `REALIGN` step 3 carries its count, and OffRequestStep2 does not look at the flags. -/
theorem racesAreKept : Obligations.RacesAreKept := by
  constructor
  · rintro s u rc rst ⟨hr, hc⟩ htx
    refine ⟨_, (realignCompute s.cfg rc rst s.clock.rollover s.clock.count).delta, _,
      exec_of_body hr (fun _ => hc) (realignBody_of_idle htx rc rst), rfl, ?_, fun hu => ⟨_, microStep_cons hu, rfl⟩⟩
    rw [cont_setCont_issuer]
    rfl
  · intro u a hu hrx htx hon
    have ha : a ≠ .timer := by
      rintro rfl
      cases hu
    refine ⟨_, microStep_cons hu, ?_⟩
    rw [runMicro, offRequestStep2_of_on hon ((offAllowed_iff _).2 ⟨hrx, htx⟩)]
    exact ⟨rfl, rfl, cont_setCont_self _ ha _⟩

end Sys2Proof.Machine
end

section
/-! PROOFS. The arbiter's commands (R140 to R142, R150 to R157): what each leaves to run, and what is left run to its end with nothing between. -/

namespace Sys2Proof.Machine

/-! ### The remaining micro-steps and the rest of the state -/

@[simp] theorem setCont_setCont (s : State) (a : Agent) (l m : List MicroStep) :
    (s.setCont a l).setCont a m = s.setCont a m := by
  simp [State.setCont]

@[simp] theorem emit_setCont (s : State) (a : Agent) (l : List MicroStep) (e : Event) :
    (s.setCont a l).emit e = (s.emit e).setCont a l := rfl

theorem emit_emit (s : State) (e f : Event) : (s.emit e).emit f = { s with out := s.out ++ [e, f] } := by
  simp [State.emit]

@[simp] theorem receiverOn_setCont (s : State) (a : Agent) (l : List MicroStep) :
    receiverOn (s.setCont a l) = (receiverOn s).setCont a l := rfl

@[simp] theorem receiverOff_setCont (s : State) (a : Agent) (l : List MicroStep) :
    receiverOff (s.setCont a l) = (receiverOff s).setCont a l := rfl

/-- A command run to its end leaves its issuer's list as it found it, empty. -/
theorem setCont_issuer_nil {s t : State} (h : Ready s) (ht : t.conts = s.conts) : t.setCont s.issuer [] = t := by
  rw [State.setCont, ht, put_issuer_nil h, ← ht]

/-! ### The runs -/

/-- RadioOn run (R140). -/
theorem runRemaining_radioOn {s : State} (h : Ready s) :
    runRemaining maxMicros s.issuer (s.setCont s.issuer [.radioOn]) = receiverOn s := by
  rw [maxMicros, runRemaining_cons (cont_setCont_issuer ..), runMicro, runRemaining_nil (cont_setCont_issuer ..),
    radioOnBody_eq, receiverOn_setCont, setCont_setCont]
  exact setCont_issuer_nil h rfl

/-- OffRequestStep2, reached with no flag set, does what OffRequest does (R142). -/
theorem offRequestStep2_of_no_flags {s : State} (h : s.arbiter.enableFlags = 0) (a : Agent) (rest : List MicroStep) :
    offRequestStep2 a rest s = (offRequested s).setCont a rest := by
  by_cases hi : offAllowed s.inputs = true
  · rw [offRequestStep2, if_pos hi, offRequested, if_pos ⟨h, (offAllowed_iff _).1 hi⟩, radioOffBody_eq, emit_emit]
  · rw [offRequestStep2, if_neg hi, offRequested, if_neg fun hc => hi ((offAllowed_iff _).2 hc.2)]

theorem offRequested_setCont (s : State) (a : Agent) (l : List MicroStep) :
    offRequested (s.setCont a l) = (offRequested s).setCont a l := by
  rw [offRequested, offRequested, apply_ite (State.setCont · a l)]
  rfl

theorem offRequested_conts (s : State) : (offRequested s).conts = s.conts := by
  unfold offRequested
  split <;> rfl

/-- OffRequestStep2 run after a test that found no flag (R142). -/
theorem runRemaining_offRequest2 {s : State} (h : Ready s) (hf : s.arbiter.enableFlags = 0) (n : Nat) :
    runRemaining (n + 1) s.issuer (s.setCont s.issuer [.offRequest2]) = offRequested s := by
  rw [runRemaining_cons (cont_setCont_issuer ..), runMicro, offRequestStep2_of_no_flags (s := s.setCont _ _) hf,
    runRemaining_nil (cont_setCont_issuer ..), offRequested_setCont, setCont_setCont]
  exact setCont_issuer_nil h (offRequested_conts s)

/-- Both steps of OffRequest run with no flag set (R142). -/
theorem runRemaining_offRequest1 {s : State} (h : Ready s) (hf : s.arbiter.enableFlags = 0) (n : Nat) :
    runRemaining (n + 2) s.issuer (s.setCont s.issuer [.offRequest1]) = offRequested s := by
  rw [runRemaining_cons (cont_setCont_issuer ..), runMicro, offRequestStep1, State.setCont_arbiter, if_pos hf,
    setCont_setCont, runRemaining_offRequest2 h hf]

/-- OffRequest run, from either of its steps, left to run exactly when no flag is set (R142, R152, R155). -/
theorem runRemaining_offRequest {s : State} (h : Ready s) {m : MicroStep} (hm : m = .offRequest1 ∨ m = .offRequest2) :
    runRemaining maxMicros s.issuer (s.setCont s.issuer (if s.arbiter.enableFlags = 0 then [m] else [])) =
      offRequested s := by
  by_cases hf : s.arbiter.enableFlags = 0
  · rw [if_pos hf]
    rcases hm with rfl | rfl
    · exact runRemaining_offRequest1 h hf _
    · exact runRemaining_offRequest2 h hf _
  · rw [if_neg hf, setCont_issuer_nil h rfl, runRemaining_nil h, offRequested, if_neg fun hc => hf hc.1]

/-- OnRequest run: what step 1 leaves when a flag is set is RadioOn (R154). -/
theorem runRemaining_onRequest {s : State} (h : Ready s) :
    runRemaining maxMicros s.issuer (s.setCont s.issuer (if s.arbiter.enableFlags = 0 then [] else [.radioOn])) =
      onRequested s := by
  by_cases hf : s.arbiter.enableFlags = 0
  · rw [if_pos hf, setCont_issuer_nil h rfl, runRemaining_nil h, onRequested, if_pos hf]
  · rw [if_neg hf, runRemaining_radioOn h, onRequested, if_neg hf]

/-- Steps 2 to 4 of `HARDDISABLE` run: off, then the two calls in order (R153). -/
theorem runRemaining_hardDisable {s : State} (h : Ready s) :
    runRemaining maxMicros s.issuer (s.setCont s.issuer [.radioOff, .haltCleanup, .serviceTx]) =
      { receiverOff s with out := (receiverOff s).out ++ [.cbRxHaltCleanup, .cbServiceTx] } := by
  rw [maxMicros, runRemaining_cons (cont_setCont_issuer ..), runMicro, runRemaining_cons (cont_setCont_issuer ..),
    runMicro, emitStep, runRemaining_cons (cont_setCont_issuer ..), runMicro, emitStep,
    runRemaining_nil (cont_setCont_issuer ..), radioOffBody_eq]
  simp only [receiverOff_setCont, emit_setCont, setCont_setCont, emit_emit]
  exact setCont_issuer_nil h rfl

/-! ### The commands -/

/-- Settles O28: with a flag named, `ENABLE` leaves RadioOn and `SOFTENABLE` nothing. -/
theorem enableResults : Obligations.EnableResults := fun s _ hr =>
  ⟨fun hz => ⟨exec_of_body hr nofun (if_pos hz), exec_of_body hr nofun (if_pos hz)⟩, fun hnz =>
    ⟨_, exec_of_body hr nofun (if_neg hnz), rfl, runRemaining_radioOn (s := { s with arbiter := _ }) hr,
      exec_of_body hr nofun (if_neg hnz)⟩⟩

/-- Settles O29: the flags left after the clear decide whether OffRequest follows, whole. -/
theorem disableResult : Obligations.DisableResult := fun s flags hr =>
  ⟨fun hz => exec_of_body hr nofun (if_pos hz), fun hnz =>
    ⟨_, exec_of_body hr nofun (if_neg hnz), rfl,
      runRemaining_offRequest
        (s := { s with arbiter := { s.arbiter with enableFlags := clearFlags s.arbiter.enableFlags flags } }) hr
        (.inl rfl)⟩⟩

/-- Settles O30: the flags are cleared, and the three steps left are run in their order. -/
theorem hardDisableResult : Obligations.HardDisableResult := fun s hr =>
  ⟨_, exec_of_body hr nofun rfl, rfl, runRemaining_hardDisable (s := { s with arbiter := _ }) hr⟩

/-- Settles O31: each request tests the flags in its first step and leaves at most one more. -/
theorem requestResults : Obligations.RequestResults := fun s hr =>
  ⟨⟨_, exec_of_body hr nofun (apply_ite (s.setCont s.issuer) ..).symm, rfl, runRemaining_onRequest hr⟩,
    ⟨_, exec_of_body hr nofun (apply_ite (s.setCont s.issuer) ..).symm, rfl,
      runRemaining_offRequest hr (.inr rfl)⟩⟩

/-- Settles O32: each body is guarded by the shadow flag. -/
theorem radioOnOffResults : Obligations.RadioOnOffResults := fun s hr =>
  ⟨fun hon => exec_of_body hr nofun (if_pos hon), fun hoff => exec_of_body hr nofun (if_neg (by simp [hoff])),
    fun hoff => exec_of_body hr nofun (if_neg (by simp [hoff])), fun hon => exec_of_body hr nofun (if_pos hon)⟩

end Sys2Proof.Machine
end

section
/-! PROOFS. The radio parameters (R40, R41, R170): where a channel or a power that is requested, applied, left to write or written comes from, and that each is one of the platform's. -/

namespace Sys2Proof.Machine

/-! ### The writes left to run -/

/-- Only `UPDATECHANNEL` leaves a channel write when it is issued (R176). -/
theorem leavesAtIssue_writeChannel {i : Instr} {ch : Byte} (h : leavesAtIssue i (.writeChannel ch) = true) :
    i = .updateChannel := by
  cases i with
  | updateChannel => rfl
  | _ => cases h

/-- Of the micro-steps, only step 1 of `UPDATECHANNEL` leaves a channel write (R176). -/
theorem leavesNext_writeChannel {m : MicroStep} {ch : Byte} (h : leavesNext m (.writeChannel ch) = true) :
    m = .updateChannel1 := by
  cases m with
  | updateChannel1 => rfl
  | _ => cases h

/-- A channel write left after `UPDATECHANNEL` step 1 was there before, or has the requested channel latched (R176). -/
theorem mem_writeChannel_updateChannelStep1 {a b : Agent} {ch : Byte} {s : State}
    (h : .writeChannel ch ∈ (updateChannelStep1 a s).cont b) :
    .writeChannel ch ∈ s.cont b ∨ ch = s.radio.requestedChannel := by
  unfold updateChannelStep1 at h
  split at h
  · rcases mem_cont_of_put (s := s) rfl h with ⟨hl, -⟩ | hs
    · exact .inr (by simpa using hl)
    · exact .inl hs
  · rcases mem_cont_of_put (s := s) rfl h with ⟨hl, -⟩ | hs
    · cases hl
    · exact .inl hs

/-- A channel write left after a command's body was there before, or has the requested channel latched. -/
theorem mem_writeChannel_bodyOf {i : Instr} {a : Agent} {ch : Byte} {s : State}
    (h : .writeChannel ch ∈ (bodyOf i s).cont a) : .writeChannel ch ∈ s.cont a ∨ ch = s.radio.requestedChannel := by
  rcases (bodyOf_cases i s).conts with hsame | ⟨l, hl, hput⟩
  · exact .inl (mem_cont_congr hsame h)
  · rcases mem_cont_of_put hput h with ⟨hmem, -⟩ | hs
    · obtain rfl := leavesAtIssue_writeChannel (hl _ hmem)
      exact mem_writeChannel_updateChannelStep1 h
    · exact .inl hs

/-- A channel write left after a micro-step was there before, or has the requested channel latched. -/
theorem mem_writeChannel_runMicro {m : MicroStep} {a b : Agent} {rest : List MicroStep} {ch : Byte} {s : State}
    (hc : s.cont a = m :: rest) (h : .writeChannel ch ∈ (runMicro m a rest s).cont b) :
    .writeChannel ch ∈ s.cont b ∨ ch = s.radio.requestedChannel := by
  obtain ⟨l, hl, hput⟩ := (runMicro_cases m a rest s).conts
  rcases mem_cont_of_put hput h with ⟨hmem, rfl⟩ | hs
  · rcases hl _ hmem with hrest | hnext
    · exact .inl (hc ▸ List.mem_cons_of_mem m hrest)
    · obtain rfl := leavesNext_writeChannel hnext
      exact mem_writeChannel_updateChannelStep1 h
  · exact .inl hs

/-- A channel write left after a step was left before, or has the requested channel latched (R176). -/
theorem StepCase.mem_writeChannel {s t : State} (h : StepCase s t) {a : Agent} {ch : Byte}
    (hm : .writeChannel ch ∈ t.cont a) : .writeChannel ch ∈ s.cont a ∨ ch = s.radio.requestedChannel := by
  cases h with
  | issue c hi i =>
    simpa using mem_writeChannel_bodyOf (s := (consume s).asCaller c)
      (mem_cont_congr (State.latchHi_conts _ c hi) hm)
  | micro b m rest _ _ _ _ hc => simpa using mem_writeChannel_runMicro (by simpa using hc) hm
  | _ => exact .inl (mem_cont_congr (by simp) hm)

/-! ### The writes emitted -/

/-- The event writes a parameter to the radio (R45). -/
def isParamWrite : Event → Bool
  | .hwSetChannel _ | .hwSetTxPower _ => true
  | _ => false

/-- An event appended that is no parameter write adds none. -/
theorem mem_of_mem_append_of_no_write {e f : Event} {l : List Event} (he : isParamWrite e = true)
    (hf : isParamWrite f = false) (h : e ∈ l ++ [f]) : e ∈ l := by
  rcases List.mem_append.1 h with hl | hl
  · exact hl
  · rw [List.mem_singleton.1 hl, hf] at he
    cases he

/-- Switching the receiver on writes no parameter (R140). -/
theorem mem_out_of_receiverOn {e : Event} {s : State} (he : isParamWrite e = true) (h : e ∈ (receiverOn s).out) :
    e ∈ s.out := by
  unfold receiverOn at h
  split at h
  · simpa using h
  · exact mem_of_mem_append_of_no_write he rfl h

/-- Switching it off writes no parameter (R141). -/
theorem mem_out_of_receiverOff {e : Event} {s : State} (he : isParamWrite e = true) (h : e ∈ (receiverOff s).out) :
    e ∈ s.out := by
  unfold receiverOff at h
  split at h
  · exact mem_of_mem_append_of_no_write he rfl h
  · simpa using h

/-- The one parameter a command writes when it is issued is the requested power (R178). -/
theorem BodyCase.mem_out {s t : State} {i : Instr} (h : BodyCase s i t) {e : Event} (he : isParamWrite e = true)
    (hm : e ∈ t.out) : e ∈ s.out ∨ e = .hwSetTxPower s.radio.requestedTxPower := by
  cases h with
  | radioOn => exact .inl (mem_out_of_receiverOn he hm)
  | radioOff => exact .inl (mem_out_of_receiverOff he hm)
  | updateTxPower => simpa using hm
  | _ => exact .inl hm

/-- A micro-step writes the channel it latched, or the requested power (R176, R178). -/
theorem MicroCase.mem_out {s t : State} {a : Agent} {rest : List MicroStep} {m : MicroStep}
    (h : MicroCase s a rest m t) {e : Event} (he : isParamWrite e = true) (hm : e ∈ t.out) :
    e ∈ s.out ∨ (∃ ch, m = .writeChannel ch ∧ e = .hwSetChannel ch) ∨
      e = .hwSetTxPower s.radio.requestedTxPower := by
  cases h with
  | radioOn => exact .inl (mem_out_of_receiverOn he hm)
  | radioOff => exact .inl (mem_out_of_receiverOff he hm)
  | offRequest2 =>
    exact .inl (mem_out_of_receiverOff he
      (mem_of_mem_append_of_no_write he rfl (mem_of_mem_append_of_no_write he rfl hm)))
  | haltCleanup | serviceTx => exact .inl (mem_of_mem_append_of_no_write he rfl hm)
  | writeChannel ch =>
    rcases List.mem_append.1 hm with hs | hw
    · exact .inl hs
    · exact .inr (.inl ⟨ch, rfl, List.mem_singleton.1 hw⟩)
  | updateTxPower =>
    rcases List.mem_append.1 hm with hs | hw
    · exact .inl hs
    · exact .inr (.inr (List.mem_singleton.1 hw))
  | _ => exact .inl hm

/-- A parameter write in the trace after a step was there before, is of a channel that was left to write, or is of the
requested power (R176, R178). -/
theorem StepCase.mem_out {s t : State} (h : StepCase s t) {e : Event} (he : isParamWrite e = true) (hm : e ∈ t.out) :
    e ∈ s.out ∨ (∃ a ch, .writeChannel ch ∈ s.cont a ∧ e = .hwSetChannel ch) ∨
      e = .hwSetTxPower s.radio.requestedTxPower := by
  cases h with
  | issue c hi i =>
    rw [State.latchHi_out] at hm
    rcases (bodyOf_cases i _).mem_out he hm with hs | hp
    · exact .inl (by simpa using hs)
    · exact .inr (.inr (by simpa using hp))
  | micro a m rest _ _ _ _ hc =>
    rcases (runMicro_cases m a rest _).mem_out he hm with hs | ⟨ch, rfl, hch⟩ | hp
    · exact .inl (by simpa using hs)
    · exact .inr (.inl ⟨a, ch, by simp [hc], hch⟩)
    · exact .inr (.inr (by simpa using hp))
  | phaseA =>
    rw [takeCompareInterrupt_out, consume_out] at hm
    split at hm
    · exact .inl (mem_of_mem_append_of_no_write he rfl hm)
    · exact .inl (by simpa using hm)
  | phaseB =>
    rw [returnFromInterrupt_out, consume_out] at hm
    exact .inl (mem_of_mem_append_of_no_write he rfl hm)
  | tick => exact .inl (by simpa [timerTick] using hm)
  | _ => exact .inl (by simpa using hm)

/-! ### The channel -/

/-- A command that requests a channel has checked its range (R175). -/
theorem BodyCase.requestedChannel_eq_or {s t : State} {i : Instr} (h : BodyCase s i t) :
    t.radio.requestedChannel = s.radio.requestedChannel ∨ channelInRange s.cfg t.radio.requestedChannel = true := by
  cases h with
  | setChannel ch hch => exact .inr hch
  | _ => exact .inl rfl

/-- A channel is requested only after the range check (R175). -/
theorem StepCase.requestedChannel_eq_or {s t : State} (h : StepCase s t) :
    t.radio.requestedChannel = s.radio.requestedChannel ∨ channelInRange s.cfg t.radio.requestedChannel = true := by
  cases h with
  | issue c hi i => simpa using (bodyOf_cases i ((consume s).asCaller c)).requestedChannel_eq_or
  | micro a m rest =>
    rcases (runMicro_cases m a rest (consume s)).radio_eq_or with hr | ⟨-, hr⟩ | ⟨-, hr, -⟩ <;> simp [hr]
  | _ => simp

/-- The applied channel is the one before or the requested one (R170). -/
theorem StepCase.appliedChannel_eq_or {s t : State} (h : StepCase s t) :
    t.radio.appliedChannel = s.radio.appliedChannel ∨ t.radio.appliedChannel = s.radio.requestedChannel := by
  rcases h.radio_eq_or with hr | ⟨_, -, hr⟩ | ⟨-, hr⟩ | ⟨_, -, hr⟩ | ⟨-, hr, -⟩ <;> simp [hr]

/-- Settles O47: a requested channel passed the check, and every later copy of it, up to the one emitted, was taken from
the copy before it. -/
theorem stepKeepsChannelInv : Obligations.StepKeepsChannelInv := by
  rintro s t ⟨hreq, happ, hcont, hout⟩ hstep
  have hcase := step_cases hstep
  unfold ChannelInv
  rw [hcase.cfg_eq]
  refine ⟨?_, ?_, fun a ch hm => ?_, fun ch hm => ?_⟩
  · rcases hcase.requestedChannel_eq_or with h | h
    · rwa [h]
    · exact h
  · rcases hcase.appliedChannel_eq_or with h | h <;> rwa [h]
  · rcases hcase.mem_writeChannel hm with h | rfl
    · exact hcont a ch h
    · exact hreq
  · rcases hcase.mem_out rfl hm with h | ⟨a, _, h, heq⟩ | h
    · exact hout ch h
    · cases heq
      exact hcont a ch h
    · cases h

/-! ### The power -/

/-- The register value of an attenuation is one of the platform's (R177). -/
theorem powerKnown_txPowerOf (p : Params) (atten : Byte) : powerKnown p (txPowerOf p atten) = true := by
  simp [powerKnown, txPowerOf_mem]

/-- Settles O48: a requested power comes from the table, and what is applied and emitted is the requested one. -/
theorem stepKeepsPowerInv : Obligations.StepKeepsPowerInv := by
  rintro s t ⟨hreq, happ, hout⟩ hstep
  have hcase := step_cases hstep
  unfold PowerInv
  rw [hcase.cfg_eq]
  obtain ⟨hreq', happ'⟩ :
      powerKnown s.cfg t.radio.requestedTxPower = true ∧ powerKnown s.cfg t.radio.appliedTxPower = true := by
    rcases hcase.radio_eq_or with hr | ⟨_, -, hr⟩ | ⟨-, hr⟩ | ⟨atten, -, hr⟩ | ⟨-, hr, -⟩ <;> rw [hr]
    · exact ⟨hreq, happ⟩
    · exact ⟨hreq, happ⟩
    · exact ⟨hreq, happ⟩
    · exact ⟨powerKnown_txPowerOf s.cfg atten, happ⟩
    · exact ⟨hreq, hreq⟩
  refine ⟨hreq', happ', fun v hm => ?_⟩
  rcases hcase.mem_out rfl hm with h | ⟨_, _, -, heq⟩ | h
  · exact hout v h
  · cases heq
  · cases h
    exact hreq

end Sys2Proof.Machine
end

section
/-! PROOFS. The radio parameters' commands (R175 to R178): what each leaves to run, and what is left run to its end with nothing between. -/

namespace Sys2Proof.Machine

/-! ### The channel's run -/

/-- `UPDATECHANNEL` step 1 with nothing to apply (R176). -/
theorem updateChannelStep1_of_eq {s : State} (h : s.radio.requestedChannel = s.radio.appliedChannel) (a : Agent) :
    updateChannelStep1 a s = s.setCont a [] := if_neg (not_not.2 h)

/-- `UPDATECHANNEL` step 1 with a channel to apply (R176). -/
theorem updateChannelStep1_of_ne {s : State} (h : s.radio.requestedChannel ≠ s.radio.appliedChannel) (a : Agent) :
    updateChannelStep1 a s =
      { s with radio := { s.radio with appliedChannel := s.radio.requestedChannel } }.setCont a
        [.radioOff, .writeChannel s.radio.requestedChannel, .onRequest1] := if_pos h

/-- Step 4 of `UPDATECHANNEL` run: OnRequest, whole (R154, R176). -/
theorem runRemaining_onRequest1 {s : State} (h : Ready s) (n : Nat) :
    runRemaining (n + 2) s.issuer (s.setCont s.issuer [.onRequest1]) = onRequested s := by
  rw [runRemaining_cons (cont_setCont_issuer ..), runMicro, onRequestStep1, onRequested, State.setCont_arbiter,
    setCont_setCont, setCont_setCont]
  split
  · rw [setCont_issuer_nil h rfl, runRemaining_nil h]
  · rw [runRemaining_cons (cont_setCont_issuer ..), runMicro, radioOnBody_eq, receiverOn_setCont, setCont_setCont,
      setCont_issuer_nil (t := receiverOn s) h rfl]
    exact runRemaining_nil (s := receiverOn s) h

/-- Steps 2 to 4 of `UPDATECHANNEL` run: off, the latched channel written, on request (R176). -/
theorem runRemaining_radioOff_writeChannel {s : State} (h : Ready s) (ch : Byte) (n : Nat) :
    runRemaining (n + 4) s.issuer (s.setCont s.issuer [.radioOff, .writeChannel ch, .onRequest1]) =
      onRequested ((receiverOff s).emit (.hwSetChannel ch)) := by
  rw [runRemaining_cons (cont_setCont_issuer ..), runMicro, runRemaining_cons (cont_setCont_issuer ..), runMicro,
    emitStep, radioOffBody_eq]
  simp only [receiverOff_setCont, emit_setCont, setCont_setCont]
  exact runRemaining_onRequest1 (s := (receiverOff s).emit _) h n

/-- `UPDATECHANNEL` run from its first step on, whether that applies a channel or not (R176). -/
theorem runRemaining_updateChannelStep1 {s : State} (h : Ready s) (n : Nat) :
    runRemaining (n + 4) s.issuer (updateChannelStep1 s.issuer s) = channelUpdated s := by
  by_cases heq : s.radio.requestedChannel = s.radio.appliedChannel
  · rw [updateChannelStep1_of_eq heq, setCont_issuer_nil h rfl, runRemaining_nil h, channelUpdated, if_pos heq]
  · rw [updateChannelStep1_of_ne heq, channelUpdated, if_neg heq]
    exact runRemaining_radioOff_writeChannel
      (s := { s with radio := { s.radio with appliedChannel := s.radio.requestedChannel } }) h _ n

/-- `UPDATECHANNEL` step 1 replaces the list of the agent that runs it. -/
theorem updateChannelStep1_setCont (a : Agent) (s : State) (l : List MicroStep) :
    updateChannelStep1 a (s.setCont a l) = updateChannelStep1 a s := by
  by_cases heq : s.radio.requestedChannel = s.radio.appliedChannel
  · rw [updateChannelStep1_of_eq heq, updateChannelStep1_of_eq (s := s.setCont a l) heq, setCont_setCont]
  · rw [updateChannelStep1_of_ne heq, updateChannelStep1_of_ne (s := s.setCont a l) heq]
    exact setCont_setCont { s with radio := { s.radio with appliedChannel := s.radio.requestedChannel } } a l _

/-- `SETCHANNEL` step 2 run: UpdateChannel, whole, unless a transmit is active (R175). -/
theorem runRemaining_setChannel2 {s : State} (h : Ready s) :
    runRemaining maxMicros s.issuer (s.setCont s.issuer [.setChannel2]) =
      if s.inputs.txActive = true then s else channelUpdated s := by
  rw [maxMicros, runRemaining_cons (cont_setCont_issuer ..), runMicro, setChannelStep2, setCont_setCont,
    State.setCont_inputs]
  cases htx : s.inputs.txActive with
  | true => simp [channelIdle, htx, setCont_issuer_nil h, runRemaining_nil h]
  | false =>
    simp only [channelIdle, htx, Bool.not_false, if_true, Bool.false_eq_true, if_false]
    rw [runRemaining_cons (cont_setCont_issuer ..), runMicro, updateChannelStep1_setCont,
      runRemaining_updateChannelStep1 h]

/-! ### The power's run -/

/-- The body of `UPDATETXPOWER` applies the power and leaves nothing to run (R178). -/
theorem updateTxPowerStep_eq (a : Agent) (s : State) : updateTxPowerStep a s = (powerUpdated s).setCont a [] := by
  rw [updateTxPowerStep, powerUpdated, ite_not, apply_ite (State.setCont · a [])]
  rfl

theorem powerUpdated_setCont (a : Agent) (s : State) (l : List MicroStep) :
    powerUpdated (s.setCont a l) = (powerUpdated s).setCont a l := by
  rw [powerUpdated, powerUpdated, apply_ite (State.setCont · a l)]
  rfl

theorem powerUpdated_conts (s : State) : (powerUpdated s).conts = s.conts := by
  unfold powerUpdated
  split <;> rfl

/-- A ready issuer's `UPDATETXPOWER` (R178). -/
theorem exec_updateTxPower {s : State} (h : Ready s) : exec .updateTxPower s = .next (powerUpdated s) :=
  exec_of_body h nofun ((updateTxPowerStep_eq _ s).trans (setCont_issuer_nil h (powerUpdated_conts s)))

/-- `SETTXPOWER` step 2 run: UpdateTxPower when neither receive nor transmit is active (R177). -/
theorem runRemaining_setTxPower2 {s : State} (h : Ready s) :
    runRemaining maxMicros s.issuer (s.setCont s.issuer [.setTxPower2]) =
      if powerIdle s.inputs = true then powerUpdated s else s := by
  rw [maxMicros, runRemaining_cons (cont_setCont_issuer ..), runMicro, setTxPowerStep2, setCont_setCont,
    State.setCont_inputs]
  split
  · rw [runRemaining_cons (cont_setCont_issuer ..), runMicro, updateTxPowerStep_eq, powerUpdated_setCont,
      setCont_setCont, runRemaining_nil (cont_setCont_issuer ..), setCont_issuer_nil h (powerUpdated_conts s)]
  · rw [setCont_issuer_nil h rfl, runRemaining_nil h]

/-! ### The commands -/

/-- Settles O34: the body is the range check, and step 2 decides on the transmit alone whether UpdateChannel follows. -/
theorem setChannelResult : Obligations.SetChannelResult := by
  intro s ch hr
  constructor
  · intro hout
    refine exec_of_body hr nofun (if_neg fun hin => ?_)
    obtain ⟨hlo, hhi⟩ := (channelInRange_iff _ _).1 hin
    omega
  · intro hlo hhi
    have hrun := runRemaining_setChannel2 (s := { s with radio := { s.radio with requestedChannel := ch } }) hr
    exact ⟨_, exec_of_body hr nofun (if_pos ((channelInRange_iff _ _).2 ⟨hlo, hhi⟩)), rfl,
      fun htx => hrun.trans (if_pos htx), fun htx => hrun.trans (if_neg (by simp [htx]))⟩

/-- Settles O35: step 1 compares the two copies, as the command and as a micro-step alike; what it latches is what
step 3 emits. -/
theorem updateChannelResult : Obligations.UpdateChannelResult := by
  refine ⟨fun s hr => ⟨fun heq => ?_, fun hne => ?_⟩, fun u a rest hu => ⟨fun heq => ?_, fun hne => ?_⟩,
    fun u a ch rest hu => microStep_cons hu⟩
  · exact exec_of_body hr nofun ((updateChannelStep1_of_eq heq _).trans (setCont_issuer_nil hr rfl))
  · have hstep := updateChannelStep1_of_ne hne s.issuer
    exact ⟨_, exec_of_body hr nofun rfl, hstep, runRemaining_updateChannelStep1 hr 2⟩
  · rw [microStep_cons hu, runMicro, updateChannelStep1_of_eq heq]
    rfl
  · rw [microStep_cons hu, runMicro, updateChannelStep1_of_ne hne]
    rfl

/-- Settles O36: the value requested is the table's entry at the clamped attenuation, and step 2 decides on both
activities whether UpdateTxPower follows. -/
theorem setTxPowerResult : Obligations.SetTxPowerResult := by
  intro s atten hr
  have hrun := runRemaining_setTxPower2
    (s := { s with radio := { s.radio with requestedTxPower := txPowerOf s.cfg atten } }) hr
  refine ⟨_, _, exec_of_body hr nofun rfl, txPowerTable_clamped s.cfg atten, rfl, fun hbusy => ?_, fun hrx htx => ?_⟩
  · exact hrun.trans (if_neg (by rcases hbusy with h | h <;> simp [powerIdle, h]))
  · exact hrun.trans (if_pos (by simp [powerIdle, hrx, htx]))

/-- Settles O37: the command is UpdateTxPower, which compares the two copies. -/
theorem updateTxPowerResult : Obligations.UpdateTxPowerResult := fun _ hr =>
  ⟨fun heq => (exec_updateTxPower hr).trans (congrArg _ (if_pos heq)),
    fun hne => (exec_updateTxPower hr).trans (congrArg _ (if_neg hne))⟩

end Sys2Proof.Machine
end

section
/-! PROOFS. Exceptions (60_exceptions.md): a step that raises a fault does nothing else (R200, R214), and who has a step while a handler is in progress or interrupts are disabled (R212). -/

namespace Sys2Proof.Machine

/-! ### Faults -/

/-- A step raises a fault and beside it names the caller only, or leaves the fault as it was (R200). -/
theorem StepCase.raises_or_keeps_fault {s t : State} (h : StepCase s t) :
    (∃ d e, t = ((consume s).asCaller d).raise e) ∨ t.fault = s.fault := by
  cases h with
  | readFault c _ _ _ _ e => exact .inl ⟨(consume s).caller, e, rfl⟩
  | badWrite => exact .inl ⟨(consume s).caller, .badAccess, rfl⟩
  | issueFault c _ _ _ e => exact .inl ⟨c, e, rfl⟩
  | issue c hi i =>
    rcases bodyOf_fault i ((consume s).asCaller c) with ⟨e, he⟩ | hkeep
    · exact .inl ⟨c, e, by rw [he, latchHi_raise]⟩
    · exact .inr (by simpa using hkeep)
  | micro a m rest => exact .inr ((runMicro_fault m a rest _).trans (consume_fault s))
  | phaseB | tick => exact .inr (consume_fault s)
  | inspect | read | latch | phaseA | drive => exact .inr (by simp)

/-- Settles O40: the shapes of a step that raise a fault set it on the consumed state, for some caller. -/
theorem faultsArePrecise : Obligations.FaultsArePrecise := by
  intro s t c hf hstep ht
  rcases (step_cases hstep).raises_or_keeps_fault with ⟨d, e, rfl⟩ | hkeep
  · cases ht
    rfl
  · cases (hkeep.trans hf).symm.trans ht

/-! ### Preemption -/

/-- FG has a step exactly when no callback is owed and neither handler has micro-steps left (R212 (1)). -/
theorem fgFree_iff (s : State) :
    fgFree s = true ↔ s.clock.isrPhase = .idle ∧ s.cont .envRadio = [] ∧ s.cont .isrCmp = [] := by
  simp [fgFree, State.cont, and_assoc]

/-- A handler in progress leaves FG no step (R212 (1)). -/
theorem fgFree_of_handler {s : State}
    (h : s.clock.isrPhase ≠ .idle ∨ s.cont .envRadio ≠ [] ∨ s.cont .isrCmp ≠ []) : fgFree s = false := by
  rw [Bool.eq_false_iff, ne_eq, fgFree_iff]
  rintro ⟨hphase, henv, hisr⟩
  simp [hphase, henv, hisr] at h

/-- An access its caller may not perform is no step (R212; log 3). -/
theorem step_access_refused {s : State} {c : Caller} {a : Access} (hf : s.fault = none)
    (hm : mayAccess c a s = false) : step (s.schedule (.access c a)) = .refused (.noStep c.agent) := by
  rw [step_schedule hf]
  dsimp only [runStimulus]
  rw [hm]
  rfl

/-- A micro-step its agent may not run is no step (R212; log 3). -/
theorem step_micro_refused {s : State} {c : Caller} (hf : s.fault = none) (hm : mayContinue c s = false) :
    step (s.schedule (.micro c)) = .refused (.noStep c.agent) := by
  rw [step_schedule hf]
  dsimp only [runStimulus]
  rw [hm]
  rfl

/-- The step of an agent that may continue is the head of what it has left (R39). -/
theorem step_micro {s : State} {c : Caller} {m : MicroStep} {rest : List MicroStep} (hf : s.fault = none)
    (hm : mayContinue c s = true) (hc : s.cont c.agent = m :: rest) :
    step (s.schedule (.micro c)) = .next (runMicro m c.agent rest s) := by
  rw [step_schedule hf]
  dsimp only [runStimulus, microAnswer]
  rw [hm, microStep_cons hc]
  rfl

/-- ENV_RADIO may not issue with interrupts disabled and nothing to continue (R212 (3)). -/
theorem envMayIssue_eq_false {s : State} (hgie : s.inputs.gie = false) (hc : s.cont .envRadio = []) :
    envMayIssue s = false := by
  have hconts : s.conts.envRadio = [] := hc
  simp [envMayIssue, hgie, hconts]

/-- Settles O42: each prohibition is the condition of `mayAccess` or `mayContinue` failing; each permitted micro-step is
that condition met; a drive has no condition. -/
theorem preemptionRules : Obligations.PreemptionRules := by
  intro s hf
  refine ⟨fun hbusy => ?_, fun hgie hc hi => ?_, fun m rest hc => step_micro (c := .envRadio) hf rfl hc,
    fun m rest hphase henv hisr hc => ?_, fun v => step_schedule hf _, fun v => step_schedule hf _,
    fun v => step_schedule hf _, fun v => step_schedule hf _⟩
  · have hfree := fgFree_of_handler hbusy
    exact ⟨step_micro_refused (c := .fg) hf hfree, fun a => step_access_refused (c := .fg) hf hfree⟩
  · exact step_access_refused (c := .envRadio) hf (envMayIssue_eq_false hgie hc)
  · exact step_micro (c := .fg) hf ((fgFree_iff s).2 ⟨hphase, henv, hisr⟩) hc

end Sys2Proof.Machine
end
